-- ==== Sys2Proof/Word.lean ====
section
/-! DEFINITION. The widths of 00_scope.md R5, each under its own name, and the word types made of them. Every word is
numbered LSB0, bit 0 the least significant (00_scope.md R7). -/

namespace Sys2Proof

namespace Config

/-- `BUFLEN`: bytes in a payload buffer (00_scope.md R5). -/
abbrev bufLen : Nat := 8

/-- `BUFBITS = 8 * BUFLEN`: bits in a payload buffer (00_scope.md R5). -/
abbrev bufBits : Nat := 8 * bufLen

/-- `IDBITS`: width of a frame identifier (00_scope.md R5). -/
abbrev idBits : Nat := 11

/-- `STARTW`: width of the `startBit` operand (00_scope.md R5). -/
abbrev startW : Nat := 8

/-- `LENW`: width of the `bitLength` operand (00_scope.md R5). -/
abbrev lenW : Nat := 8

/-- `VALW`: width of a field value and of a raw count (00_scope.md R5). -/
abbrev valW : Nat := 32

/-- `QW`: width of a scaled fixed-point register (00_scope.md R5). -/
abbrev qW : Nat := 32

/-- `SCALEW`: width of a scale (00_scope.md R5). -/
abbrev scaleW : Nat := 16

/-- `RETRYW`: width of the retry counter and of its bound (00_scope.md R5). -/
abbrev retryW : Nat := 16

/-- `FILLW`: width of the `fillLevel` answer (00_scope.md R5). -/
abbrev fillW : Nat := 8

end Config

/-- A request word or a response word (30_encoding.md R81, R90). -/
abbrev Word128 := BitVec 128

/-- A payload buffer as the number `B` of 00_scope.md R8: byte `i` is bits `8*i+7` down to `8*i`. -/
abbrev Buffer := BitVec Config.bufBits

/-- A standard frame identifier. -/
abbrev FrameId := BitVec Config.idBits

/-- A field value or a raw count. -/
abbrev RawCount := BitVec Config.valW

/-- A scaled fixed-point quantity (00_scope.md R11). -/
abbrev Quantity := BitVec Config.qW

/-- A `startBit` operand. -/
abbrev StartBit := BitVec Config.startW

/-- A `bitLength` operand. -/
abbrev BitLength := BitVec Config.lenW

/-- A scale: raw counts per physical unit (00_scope.md R11). -/
abbrev Scale := BitVec Config.scaleW

/-- A count of retries, or its bound. -/
abbrev RetryCount := BitVec Config.retryW

/-- An answer of `env.fillLevel` (30_encoding.md R103). -/
abbrev FillLevel := BitVec Config.fillW

end Sys2Proof
end

