-- ==== Sys2Proof/Config.lean ====
section
/-! DEFINITION. What is fixed when the hardware is built (00_scope.md R5, whose widths stand in Word.lean; R14; 10_state.md
R32), the records the
configuration and the environment are made of, and the values the spec leaves open, as constants with no body. -/

namespace Sys2Proof

/-- The comparison of a descriptor (30_encoding.md R102): code 0 is `ge`, code 1 is `gt`; there is no third one. -/
inductive Cmp where
  | ge
  | gt
deriving DecidableEq, Repr, Inhabited

/-- A signal descriptor (41_descriptor_lookup.md R140). -/
structure Descriptor where
  frameId   : FrameId
  startBit  : StartBit
  bitLength : BitLength
  scale     : Scale
  thr       : Quantity
  cmp       : Cmp
deriving DecidableEq, Repr, Inhabited

/-- The descriptor table: `NSIG = 3` entries, index 0 voltage, 1 current, 2 temperature (41_descriptor_lookup.md R142). -/
structure Table where
  voltage     : Descriptor
  current     : Descriptor
  temperature : Descriptor
deriving DecidableEq, Repr, Inhabited

/-- A frame as it crosses `env.pop` and `env.trySend` (30_encoding.md R98). -/
structure Frame where
  id      : FrameId
  length  : BitVec 4
  payload : Buffer
deriving DecidableEq, Repr, Inhabited

/-- The answer of `env.trySend` (30_encoding.md R103, 46_sequencer.md R243). -/
inductive TxAnswer where
  | sent
  | busy
deriving DecidableEq, Repr, Inhabited

/-- One sweep state: four scaled fixed-point quantities (10_state.md R26). -/
structure Sweep where
  current : Quantity
  step    : Quantity
  min     : Quantity
  max     : Quantity
deriving DecidableEq, Repr, Inhabited

/-- The parameters that the sequencer's steps read: the table and the retry bound (00_scope.md R5). -/
structure Params where
  table    : Table
  maxRetry : RetryCount
deriving DecidableEq, Repr, Inhabited

namespace Config

/-- `MAXLEN`: the largest `bitLength` the codec accepts (00_scope.md R5, 90_conflicts.md C1). -/
abbrev maxLen : Nat := 32

/-- `NSIG`: descriptors in the table (00_scope.md R5). -/
abbrev numSignals : Nat := 3

/-- `FRAC`: fraction bits of a scaled fixed-point quantity (00_scope.md R5). -/
abbrev frac : Nat := 8

/-- `GEN_PERIOD`: poll cycles per generate phase (00_scope.md R5). -/
abbrev genPeriod : Nat := 10

/-- `SLEEP_MS`: the suspension quantum in milliseconds, the 16-bit argument of `env.sleep` (00_scope.md R5,
30_encoding.md R103). -/
def sleepMs : BitVec 16 := 10#16

/-- `TABLE` of this hardware (41_descriptor_lookup.md R142). -/
def table : Table where
  voltage     := ⟨0x400#11, 6#8, 12#8, 100#16, 384000#32, .ge⟩
  current     := ⟨0x500#11, 16#8, 8#8, 10#16, 25600#32, .ge⟩
  temperature := ⟨0x600#11, 32#8, 12#8, 10#16, 107520#32, .gt⟩

/-- `MAX_RETRY`, OPEN in 0..65535: a constant with no body (00_scope.md R5, 93 U8; log 9). -/
opaque maxRetry : RetryCount

/-- The parameters of this hardware. -/
def params : Params := ⟨table, maxRetry⟩

/-- `SWEEP_RESET[0]`: 12.00, 0.02, 12.00, 14.00 at scale 100 (10_state.md R34). -/
def sweepResetVoltage : Sweep := ⟨307200#32, 512#32, 307200#32, 358400#32⟩

/-- `SWEEP_RESET[1]`, OPEN: a constant with no body (10_state.md R34, 93 U8; log 10). -/
opaque sweepResetCurrent : Sweep

/-- `SWEEP_RESET[2]`, OPEN: a constant with no body (10_state.md R34, 93 U8; log 10). -/
opaque sweepResetTemperature : Sweep

/-- The receive queue when the engine comes out of reset: unconstrained (70_reset_and_hazards.md R301; log 11). -/
opaque rxQueueAtReset : List Frame

/-- The frames that arrive before a sequencer step, for the draw with this number: the environment's free choice
(46_sequencer.md R247, 93 U7; log 5). -/
opaque freeArrivals : Nat → List Frame

/-- The answer of `env.trySend`, for the draw with this number: the environment's free choice (46_sequencer.md R243,
93 U7; log 6). -/
opaque freeTxAnswer : Nat → TxAnswer

/-- The 8-bit answer of `env.fillLevel` for a queue of more than 255 frames, given the queue's length and the number of
the draw: the spec states no value (46_sequencer.md R241; log 7). -/
opaque freeFillLevel : Nat → Nat → FillLevel

/-- The physical value of a raw count at scale 0: undefined as a rational, so a free value; no step uses it
(43_frame_decoder.md R174, 93 U4; log 20). -/
opaque rawAtScaleZero : RawCount → ℚ

/-- The physical value of a scaled fixed-point quantity at scale 0: undefined as a rational, so a free value; no step uses
it (00_scope.md R11, 93 U4; log 20). -/
opaque quantityAtScaleZero : Quantity → ℚ

end Config

end Sys2Proof
end

