-- ==== Sys2Proof/Syntax.lean ====
section
/-! DEFINITION. The seven operations with their typed operands (00_scope.md R6; 30_encoding.md R84 to R89), one
constructor per row of the opcode table. -/

namespace Sys2Proof

/-- An operation request with its operands. The context it is requested in is no operand (30_encoding.md R106): it is
fixed by the port the request came in on (log 17). -/
inductive Instr where
  /-- `WRFLD buf, start, len, value` (format F). -/
  | wrfld (buffer : Buffer) (startBit : StartBit) (bitLength : BitLength) (value : RawCount)
  /-- `RDFLD buf, start, len` (format F). -/
  | rdfld (buffer : Buffer) (startBit : StartBit) (bitLength : BitLength)
  /-- `LOOKUP id` (format I). -/
  | lookup (frameId : FrameId)
  /-- `CLASSIFY raw, thr, cmp` (format C). -/
  | classify (raw : RawCount) (thr : Quantity) (cmp : Cmp)
  /-- `DECODE id, length, buf` (format M). -/
  | decode (frameId : FrameId) (length : BitVec 4) (payload : Buffer)
  /-- `ENCNEXT sig` (format S); `sigIdx = 3` is illegal (30_encoding.md R104). -/
  | encnext (sigIdx : BitVec 2)
  /-- `SEND id, length, buf, maxretry` (format T). -/
  | send (frameId : FrameId) (length : BitVec 4) (payload : Buffer) (maxRetry : RetryCount)
deriving DecidableEq, Repr

end Sys2Proof
end

