-- ==== Sys2Proof/WellFormed.lean ====
section
/-! DEFINITION. Which operand values are legal encodings (30_encoding.md R104, R105), and which tables are well-formed
(41_descriptor_lookup.md R145). -/

namespace Sys2Proof

/-- The one operand value that has a place in a word and is illegal: `sigIdx = 3` (30_encoding.md R104 (c)). Values that
are legal and fail at execution are well-formed (R105). -/
def Instr.wf : Instr → Bool
  | .encnext sigIdx => sigIdx != 3#2
  | .wrfld _ _ _ _ => true
  | .rdfld _ _ _ => true
  | .lookup _ => true
  | .classify _ _ _ => true
  | .decode _ _ _ => true
  | .send _ _ _ _ => true

/-- One entry of a well-formed table: `1 <= bitLength <= 32`, the field inside the 64 bits, `scale >= 1`
(41_descriptor_lookup.md R145). The reserved bits of a descriptor word are zero for every `Descriptor`, which has none. -/
def Descriptor.wf (d : Descriptor) : Bool :=
  decide (1 ≤ d.bitLength.toNat) && decide (d.bitLength.toNat ≤ Config.maxLen) &&
    decide (d.startBit.toNat + d.bitLength.toNat ≤ Config.bufBits) && decide (1 ≤ d.scale.toNat)

/-- A well-formed table: well-formed entries, no identifier twice (41_descriptor_lookup.md R141, R145). -/
def Table.wf (t : Table) : Bool :=
  t.voltage.wf && t.current.wf && t.temperature.wf && t.voltage.frameId != t.current.frameId &&
    t.voltage.frameId != t.temperature.frameId && t.current.frameId != t.temperature.frameId

end Sys2Proof
end

