-- ==== Sys2Proof/Decode.lean ====
section
/-! DEFINITION. Decoding and encoding of request words (30_encoding.md R81 to R89, R104, R107). -/

namespace Sys2Proof

/-- Why a request word is illegal (30_encoding.md R104 (a), (b), (c)). -/
inductive DecodeError where
  /-- Opcode 0x0 or 0x8 to 0xF. -/
  | reservedOpcode
  /-- A bit that the format calls reserved is 1. -/
  | reservedBits
  /-- `ENCNEXT` with `sigIdx = 3`. -/
  | reservedSignal
deriving DecidableEq, Repr

/-- The comparison code (30_encoding.md R102). -/
def Cmp.code : Cmp → BitVec 1
  | .ge => 0#1
  | .gt => 1#1

/-- The comparison of a code (30_encoding.md R102). -/
def Cmp.ofCode (c : BitVec 1) : Cmp := if c = 1#1 then .gt else .ge

/-- Answers `i` where the format's reserved bits are zero (30_encoding.md R104 (b)). -/
def guardReserved (reservedZero : Bool) (i : Instr) : Except DecodeError Instr :=
  if reservedZero then .ok i else .error .reservedBits

/-- Format F with opcode 0x1 (30_encoding.md R84). -/
def decodeWrfld (w : Word128) : Except DecodeError Instr :=
  guardReserved (w.extractLsb' 4 4 == 0#4 && w.extractLsb' 24 8 == 0#8)
    (.wrfld (w.extractLsb' 64 64) (w.extractLsb' 8 8) (w.extractLsb' 16 8) (w.extractLsb' 32 32))

/-- Format F with opcode 0x2: the value bits are reserved too (30_encoding.md R84). -/
def decodeRdfld (w : Word128) : Except DecodeError Instr :=
  guardReserved (w.extractLsb' 4 4 == 0#4 && w.extractLsb' 24 8 == 0#8 && w.extractLsb' 32 32 == 0#32)
    (.rdfld (w.extractLsb' 64 64) (w.extractLsb' 8 8) (w.extractLsb' 16 8))

/-- Format I (30_encoding.md R85). -/
def decodeLookup (w : Word128) : Except DecodeError Instr :=
  guardReserved (w.extractLsb' 4 4 == 0#4 && w.extractLsb' 19 109 == 0#109) (.lookup (w.extractLsb' 8 11))

/-- Format C (30_encoding.md R86). -/
def decodeClassify (w : Word128) : Except DecodeError Instr :=
  guardReserved (w.extractLsb' 5 27 == 0#27 && w.extractLsb' 96 32 == 0#32)
    (.classify (w.extractLsb' 32 32) (w.extractLsb' 64 32) (.ofCode (w.extractLsb' 4 1)))

/-- Format M (30_encoding.md R87). -/
def decodeDecode (w : Word128) : Except DecodeError Instr :=
  guardReserved (w.extractLsb' 19 45 == 0#45)
    (.decode (w.extractLsb' 8 11) (w.extractLsb' 4 4) (w.extractLsb' 64 64))

/-- Format S (30_encoding.md R88), with the illegal index (R104 (c)). -/
def decodeEncnext (w : Word128) : Except DecodeError Instr :=
  if w.extractLsb' 8 2 = 3#2 then .error .reservedSignal
  else guardReserved (w.extractLsb' 4 4 == 0#4 && w.extractLsb' 10 118 == 0#118) (.encnext (w.extractLsb' 8 2))

/-- Format T (30_encoding.md R89). -/
def decodeSend (w : Word128) : Except DecodeError Instr :=
  guardReserved (w.extractLsb' 19 13 == 0#13 && w.extractLsb' 48 16 == 0#16)
    (.send (w.extractLsb' 8 11) (w.extractLsb' 4 4) (w.extractLsb' 64 64) (w.extractLsb' 32 16))

/-- The request decoder: the opcode map of 30_encoding.md R82. Every word decodes to one operation with one operand
tuple or is illegal (R104). -/
def decode (w : Word128) : Except DecodeError Instr :=
  match (w.extractLsb' 0 4).toNat with
  | 0x1 => decodeWrfld w
  | 0x2 => decodeRdfld w
  | 0x3 => decodeLookup w
  | 0x4 => decodeClassify w
  | 0x5 => decodeDecode w
  | 0x6 => decodeEncnext w
  | 0x7 => decodeSend w
  | _   => .error .reservedOpcode

/-- The request word of an operation (30_encoding.md R82, R84 to R89), high bits first. -/
def encode : Instr → Word128
  | .wrfld buffer startBit bitLength value => buffer ++ value ++ 0#8 ++ bitLength ++ startBit ++ 0#4 ++ 0x1#4
  | .rdfld buffer startBit bitLength => buffer ++ 0#32 ++ 0#8 ++ bitLength ++ startBit ++ 0#4 ++ 0x2#4
  | .lookup frameId => 0#109 ++ frameId ++ 0#4 ++ 0x3#4
  | .classify raw thr cmp => 0#32 ++ thr ++ raw ++ 0#27 ++ cmp.code ++ 0x4#4
  | .decode frameId length payload => payload ++ 0#45 ++ frameId ++ length ++ 0x5#4
  | .encnext sigIdx => 0#118 ++ sigIdx ++ 0#4 ++ 0x6#4
  | .send frameId length payload maxRetry =>
    payload ++ 0#16 ++ maxRetry ++ 0#13 ++ frameId ++ length ++ 0x7#4

/-- The instruction the decoder reads from the opcode table's bits: a request is one 128-bit word (30_encoding.md R83), so
the table's numbering is the word's own, and bits at `nbits` and above are zero. -/
def decodeTableWord (nbits w : Nat) : Option Instr :=
  match decode (BitVec.ofNat 128 (w % 2 ^ nbits)) with
  | .ok i => some i
  | .error _ => none

end Sys2Proof
end

