-- ==== Sys2Proof/Machine/State.lean ====
section
/-! DEFINITION. The state: the engine's own state `S` (10_state.md R20, exactly its fields) and, around it, what the spec
puts outside the engine: the two request ports, the reset line, the environment and the trace of events. -/

namespace Sys2Proof.Machine

/-- The sequencer's micro-state (10_state.md R23); code 7 cannot be written down (R24, 93 U2). -/
inductive Phase where
  | drainCheck
  | drainPop
  | tick
  | genEncode
  | genSend
  | genNext
  | sleep
deriving DecidableEq, Repr

/-- The legal values of `S.txFrame.length`: 0 after reset, else 8 (10_state.md R20; 93 U2). -/
inductive TxLength where
  | zero
  | eight
deriving DecidableEq, Repr

/-- `S.txFrame`, the frame being transmitted (10_state.md R29). -/
structure TxFrame where
  id      : FrameId
  length  : TxLength
  payload : Buffer
deriving DecidableEq, Repr

/-- `S.sweep[0..2]` (10_state.md R26): index 0 voltage, 1 current, 2 temperature. -/
structure Sweeps where
  voltage     : Sweep
  current     : Sweep
  temperature : Sweep
deriving DecidableEq, Repr

/-- The engine state `S`: exactly the fields of 10_state.md R20. -/
structure Engine where
  phase   : Phase
  tick    : Fin Config.genPeriod
  sigIdx  : Fin Config.numSignals
  retry   : RetryCount
  txFrame : TxFrame
  sweep   : Sweeps
deriving DecidableEq, Repr

/-- The context of a request, fixed by the port it came in on (30_encoding.md R106, 60_exceptions.md R275). No field of the
state holds one: it is not a state of the engine. -/
inductive Ctx where
  | seq
  | direct
deriving DecidableEq, Repr

/-- The SEQ port: the request word that waits on it, if any, and the response word of the operation that the last step
ended, if it ended one (30_encoding.md R81, R90). The words are no fields of `S`; a response word stands here in the state
its operation ends in and in no later one (10_state.md R21; log 19). -/
structure Port where
  request  : Option Word128
  response : Option Word128
deriving DecidableEq, Repr

/-- The observable events (46_sequencer.md R238). -/
inductive Event where
  | fillLevel (n : FillLevel)
  | pop (f : Frame)
  | emit (record : Word128)
  | trySend (f : Frame) (answer : TxAnswer)
  | sleep (ms : BitVec 16)
deriving DecidableEq, Repr

/-- The environment (10_state.md R31), none of it a field of `S`. `rxQueue` is the receive queue, oldest frame first.
`arrivals` and `txAnswers` are what the environment is going to do: the frames it appends before each coming sequencer step and
its coming answers to `env.trySend`. Where such a list has run out, its next choice is a free value of Config; `draws` counts
the free values taken. -/
structure Env where
  rxQueue   : List Frame
  arrivals  : List (List Frame)
  txAnswers : List TxAnswer
  draws     : Nat
deriving DecidableEq, Repr

/-- The machine. `engine` is `S`. `directRequests` are the words of the direct requests in progress, any number of
them: what the direct requesters ask, an input that no step writes (20_memory.md R67; log 2). `sending` says that the
SEND on the SEQ port is between two of its passes (45_channel_transmit.md R211). `resetLine` is the reset event from
outside (70_reset_and_hazards.md R300). `trace` is the sequence of events so far, oldest first (46_sequencer.md R238). -/
structure State where
  engine         : Engine
  seqPort        : Port
  directRequests : List Word128
  sending        : Bool
  resetLine      : Bool
  env            : Env
  trace          : List Event
deriving DecidableEq, Repr

/-- The ways the machine stops. -/
inductive Fault where
  /-- Raised by the sequencer in phase `DRAIN_POP` when the receive queue is empty: the environment broke R246 (a), `pop`
  has no defined answer and the sequencer has no step (46_sequencer.md R246; 93 U5). Safe: the model goes no further. -/
  | rxQueueEmpty
deriving DecidableEq, Repr

/-- The ways the model can decline an instruction. -/
inductive Refusal where
  /-- An operation that has no meaning in `exec`. Raised by no arm: every operation of the table has its meaning. Safe. -/
  | notModelled (mnemonic : String)
deriving DecidableEq, Repr

/-- The engine right after reset (10_state.md R34, 70_reset_and_hazards.md R300). -/
def Engine.reset : Engine where
  phase   := .drainCheck
  tick    := 0
  sigIdx  := 0
  retry   := 0#16
  txFrame := ⟨0#11, .zero, 0#64⟩
  sweep   := ⟨Config.sweepResetVoltage, Config.sweepResetCurrent, Config.sweepResetTemperature⟩

/-- The machine right after reset: the engine as 10_state.md R34 says; no request and no response on a port, nothing in
the trace, and an environment whose queue is unconstrained (70_reset_and_hazards.md R301; log 11). -/
def State.reset : State where
  engine         := Engine.reset
  seqPort        := ⟨none, none⟩
  directRequests := []
  sending        := false
  resetLine      := false
  env            := ⟨Config.rxQueueAtReset, [], [], 0⟩
  trace          := []

end Sys2Proof.Machine
end

