-- ==== Sys2Proof/Machine/Operands.lean ====
section
/-! DEFINITION. The encodings of results and records (30_encoding.md R90 to R103), the index operand, and the physical
quantities with their rounding (00_scope.md R11, R12). -/

namespace Sys2Proof

/-- The operand `sigIdx` as a table index (44_frame_encoder.md R185): none for 3 (30_encoding.md R104 (c)). -/
def signalOf (sigIdx : BitVec 2) : Option (Fin Config.numSignals) :=
  if sigIdx = 0#2 then some 0 else if sigIdx = 1#2 then some 1 else if sigIdx = 2#2 then some 2 else none

/-- `TABLE[i]` (20_memory.md R55). -/
def Table.entry (t : Table) (i : Fin Config.numSignals) : Descriptor :=
  if i = 0 then t.voltage else if i = 1 then t.current else t.temperature

/-- The descriptor word (30_encoding.md R99), high bits first. -/
def Descriptor.word (d : Descriptor) : BitVec 96 :=
  d.thr ++ 0#15 ++ d.cmp.code ++ d.scale ++ d.bitLength ++ d.startBit ++ 0#5 ++ d.frameId

/-- The 79-bit frame word (30_encoding.md R98). -/
def Frame.word (f : Frame) : BitVec 79 := f.payload ++ f.id ++ f.length

/-- The one-bit code of a `trySend` answer (30_encoding.md R103). -/
def TxAnswer.code : TxAnswer → BitVec 1
  | .busy => 0#1
  | .sent => 1#1

/-- `phys(q, s) = q / (2^FRAC * s)`, an exact rational (00_scope.md R11). At scale 0, which no well-formed table has, it is
undefined and here a free value (93 U4; DESIGN CHOICE, log 20). -/
def physOf (q : Quantity) (scale : Scale) : ℚ :=
  if scale = 0#16 then Config.quantityAtScaleZero q
  else (q.toNat : ℚ) / ((2 ^ Config.frac : ℕ) * (scale.toNat : ℚ))

/-- The threshold a descriptor denotes (41_descriptor_lookup.md R140). -/
def Descriptor.warnThreshold (d : Descriptor) : ℚ := physOf d.thr d.scale

/-- `round_hu(q) = (q + 2^(FRAC-1)) >> FRAC`, the sum formed in 33 bits (00_scope.md R12 (d); 44_frame_encoder.md R188). -/
def roundHalfUp (q : Quantity) : RawCount :=
  ((q.setWidth 33 + 128#33) >>> Config.frac).setWidth 32

/-- A decoded sample (30_encoding.md R100; 43_frame_decoder.md R171). -/
structure Sample where
  frameId   : FrameId
  rawValue  : RawCount
  scale     : Scale
  isWarning : Bool
deriving DecidableEq, Repr

/-- `physicalValue`, the exact rational `rawValue / scale` (43_frame_decoder.md R174). At scale 0, which no well-formed table
has, it is undefined and here a free value (93 U4; DESIGN CHOICE, log 20). -/
def Sample.physicalValue (x : Sample) : ℚ :=
  if x.scale = 0#16 then Config.rawAtScaleZero x.rawValue else (x.rawValue.toNat : ℚ) / (x.scale.toNat : ℚ)

namespace Machine

/-- The phase codes (10_state.md R23). -/
def Phase.code : Phase → BitVec 3
  | .drainCheck => 0#3
  | .drainPop => 1#3
  | .tick => 2#3
  | .genEncode => 3#3
  | .genSend => 4#3
  | .genNext => 5#3
  | .sleep => 6#3

/-- The one-bit sideband `ctx` that a request arrives with (30_encoding.md R106). It is no bit of the request word: the port
gives it, and the requester cannot. -/
def Ctx.code : Ctx → BitVec 1
  | .seq => 0#1
  | .direct => 1#1

/-- The context that a sideband bit stands for (30_encoding.md R106). -/
def Ctx.ofCode (c : BitVec 1) : Ctx := if c = 1#1 then .direct else .seq

/-- The four bits of `S.txFrame.length` (10_state.md R20). -/
def TxLength.bits : TxLength → BitVec 4
  | .zero => 0#4
  | .eight => 8#4

/-- `S.txFrame` as the frame record that crosses `env.trySend` (30_encoding.md R98). -/
def TxFrame.frame (f : TxFrame) : Frame := ⟨f.id, f.length.bits, f.payload⟩

/-- `S.sweep[i]` (10_state.md R26). -/
def Sweeps.get (w : Sweeps) (i : Fin Config.numSignals) : Sweep :=
  if i = 0 then w.voltage else if i = 1 then w.current else w.temperature

/-- `S.sweep[i]` replaced. -/
def Sweeps.set (w : Sweeps) (i : Fin Config.numSignals) (x : Sweep) : Sweeps :=
  if i = 0 then { w with voltage := x } else if i = 1 then { w with current := x } else { w with temperature := x }

/-- The outcome of an operation (60_exceptions.md R260). -/
inductive Status where
  | ok
  | outOfRange
  | unknownSignal
  | channelSaturated
  | illegalOp
  | notPermitted
deriving DecidableEq, Repr

/-- The status code `Q[3:0]` (60_exceptions.md R260). Codes 6 to 15 are no status's. -/
def Status.code : Status → BitVec 4
  | .ok => 0#4
  | .outOfRange => 1#4
  | .unknownSignal => 2#4
  | .channelSaturated => 3#4
  | .illegalOp => 4#4
  | .notPermitted => 5#4

/-- A response word that holds a status and nothing else (30_encoding.md R90, R97). -/
def Status.response (st : Status) : Word128 := 0#124 ++ st.code

/-- `WRFLD` response (30_encoding.md R91). -/
def wrfldResponse (st : Status) (buffer : Buffer) : Word128 := buffer ++ 0#60 ++ st.code

/-- `RDFLD` response with status `OK` (30_encoding.md R92). -/
def rdfldResponse (value : RawCount) : Word128 := 0#64 ++ value ++ 0#28 ++ Status.ok.code

/-- `LOOKUP` response with status `OK` (30_encoding.md R93). -/
def lookupResponse (idx : Fin Config.numSignals) (d : Descriptor) : Word128 :=
  d.word ++ 0#26 ++ BitVec.ofNat 2 idx.val ++ Status.ok.code

/-- `CLASSIFY` response (30_encoding.md R94). -/
def classifyResponse (isWarning : Bool) : Word128 := 0#123 ++ BitVec.ofBool isWarning ++ Status.ok.code

/-- `DECODE` response with status `OK`, which is the decoded-sample record (30_encoding.md R95, R100). -/
def sampleResponse (x : Sample) : Word128 :=
  0#64 ++ x.rawValue ++ x.scale ++ x.frameId ++ BitVec.ofBool x.isWarning ++ Status.ok.code

/-- `DECODE` response with another status: the identifier echoed, no sample (30_encoding.md R95). -/
def noSampleResponse (frameId : FrameId) (st : Status) : Word128 :=
  0#64 ++ 0#32 ++ 0#16 ++ frameId ++ 0#1 ++ st.code

/-- `ENCNEXT` response with status `OK`: a frame (30_encoding.md R96). -/
def encnextResponse (f : Frame) : Word128 := f.payload ++ 0#45 ++ f.id ++ f.length ++ Status.ok.code

end Machine

end Sys2Proof
end

