-- ==== Sys2Proof/Machine/Flags.lean ====
section
/-! DEFINITION. The one-bit results. The engine keeps no flag (10_state.md R30): these are computed inside an operation and
leave in its response word. -/

namespace Sys2Proof.Machine

/-- The range check, the sum formed without wrap (20_memory.md R54; 00_scope.md R12 (a)). -/
def inRange (startBit : StartBit) (bitLength : BitLength) : Bool :=
  decide (1 ≤ bitLength.toNat) && decide (bitLength.toNat ≤ Config.maxLen) &&
    decide (startBit.toNat + bitLength.toNat ≤ Config.bufBits)

/-- The comparator: `raw * 256` against `thr` as 40-bit numbers (42_classifier.md R156). -/
def isWarning (raw : RawCount) (thr : Quantity) (cmp : Cmp) : Bool :=
  let lhs := raw.setWidth 40 <<< Config.frac
  let rhs := thr.setWidth 40
  match cmp with
  | .ge => rhs.ule lhs
  | .gt => rhs.ult lhs

/-- Whether an operation may be requested in a context (60_exceptions.md R276). `exec` is context `SEQ`, which permits all. -/
def permitted (i : Instr) (c : Ctx) : Bool :=
  match i, c with
  | .encnext _, .direct => false
  | .send _ _ _ _, .direct => false
  | .encnext _, .seq => true
  | .send _ _ _ _, .seq => true
  | .wrfld _ _ _ _, _ => true
  | .rdfld _ _ _, _ => true
  | .lookup _, _ => true
  | .classify _ _ _, _ => true
  | .decode _ _ _, _ => true

end Sys2Proof.Machine
end

