-- ==== Sys2Proof/Machine/Ops.lean ====
section
/-! DEFINITION. The shared operations: the two accesses to a payload buffer, the sweep advance, the answer to a request
(the engine's only form of an exception, 60_exceptions.md R271), the calls on the environment, and the reset event. -/

namespace Sys2Proof

/-- The sweep advance: a 33-bit sum, strictly above `max` goes to `min` (44_frame_encoder.md R189). -/
def Sweep.advance (w : Sweep) : Sweep :=
  let sum := w.current.setWidth 33 + w.step.setWidth 33
  if (w.max.setWidth 33).ult sum then { w with current := w.min } else { w with current := sum.setWidth 32 }

namespace Machine

/-- `mask(n) = 2^n - 1` as 64 bits (00_scope.md R9). -/
def fieldMask (n : Nat) : Buffer := (1#64 <<< n) - 1#64

/-- `BufRead(B, s, n)`, zero-extended to 32 bits (20_memory.md R52; 00_scope.md R12 (c)). For callers that have checked the
range. -/
def bufRead (b : Buffer) (s n : Nat) : RawCount := ((b >>> s) &&& fieldMask n).setWidth 32

/-- `BufWrite(B, s, n, v)` (20_memory.md R53). For callers that have checked the range. -/
def bufWrite (b : Buffer) (s n : Nat) (v : RawCount) : Buffer :=
  (b &&& ~~~(fieldMask n <<< s)) ||| ((v.setWidth 64 &&& fieldMask n) <<< s)

/-! ### Answers on the SEQ port -/

/-- `return status X` with its response word (00_scope.md R10; 30_encoding.md R90; 60_exceptions.md R271): the operation
ends, the word goes to the requester, nothing is saved and no control is transferred. The request leaves the port. -/
def State.answer (s : State) (q : Word128) : State := { s with seqPort := ⟨none, some q⟩, sending := false }

/-- The answer to an illegal request word: the bare status, no other effect (30_encoding.md R104; 60_exceptions.md R264). -/
def State.answerIllegal (s : State) : State := s.answer Status.illegalOp.response

/-- No response word on the SEQ port: the step ends no operation requested there (10_state.md R21; log 19). -/
def State.clearResponse (s : State) : State := { s with seqPort := { s.seqPort with response := none } }

/-! ### Fields of the engine -/

/-- `S.phase <- p`. -/
def State.setPhase (s : State) (p : Phase) : State := { s with engine := { s.engine with phase := p } }

/-- `S.retry <- n`. -/
def State.setRetry (s : State) (n : RetryCount) : State := { s with engine := { s.engine with retry := n } }

/-! ### The environment -/

/-- One event more in the trace (46_sequencer.md R238). -/
def State.log (s : State) (e : Event) : State := { s with trace := s.trace ++ [e] }

/-- The environment's own step before a sequencer step: it appends frames to the receive queue, those listed in
`arrivals` or, where none are listed, a free choice (46_sequencer.md R241, R247; log 5). -/
def Env.arrive (e : Env) : Env :=
  match e.arrivals with
  | fs :: rest => { e with rxQueue := e.rxQueue ++ fs, arrivals := rest }
  | [] => { e with rxQueue := e.rxQueue ++ Config.freeArrivals e.draws, draws := e.draws + 1 }

/-- `State` after the environment's own step. -/
def State.arrive (s : State) : State := { s with env := s.env.arrive }

/-- The answer of `env.fillLevel()`: the number of queued frames as 8 bits, a free value where 8 bits do not hold it
(46_sequencer.md R241; 30_encoding.md R103; log 7). -/
def Env.fillLevel (e : Env) : FillLevel × Env :=
  if e.rxQueue.length < 2 ^ Config.fillW then (BitVec.ofNat Config.fillW e.rxQueue.length, e)
  else (Config.freeFillLevel e.rxQueue.length e.draws, { e with draws := e.draws + 1 })

/-- The call `env.fillLevel()` with its event. -/
def State.fillLevel (s : State) : FillLevel × State :=
  (s.env.fillLevel.1, { s with env := s.env.fillLevel.2 }.log (.fillLevel s.env.fillLevel.1))

/-- The channel's next answer: the one listed in `txAnswers` or, where none is listed, a free choice
(46_sequencer.md R243; log 6). -/
def Env.txAnswer (e : Env) : TxAnswer × Env :=
  match e.txAnswers with
  | a :: rest => (a, { e with txAnswers := rest })
  | [] => (Config.freeTxAnswer e.draws, { e with draws := e.draws + 1 })

/-- The call `env.trySend(f)` with its event (46_sequencer.md R243). -/
def State.trySend (s : State) (f : Frame) : TxAnswer × State :=
  (s.env.txAnswer.1, { s with env := s.env.txAnswer.2 }.log (.trySend f s.env.txAnswer.1))

/-! ### Reset -/

/-- The reset event (70_reset_and_hazards.md R300 to R302): every field of `S` at its reset value, a request of the
sequencer abandoned without a status; direct requests, the environment and the trace untouched. -/
def State.applyReset (s : State) : State :=
  { s with engine := Engine.reset, seqPort := ⟨none, none⟩, sending := false, resetLine := false }

end Machine

end Sys2Proof
end

