-- ==== Sys2Proof/Machine/Codec.lean ====
section
/-! DEFINITION. The BitField Codec: `WRFLD` and `RDFLD` (40_bitfield_codec.md). -/

namespace Sys2Proof.Machine

/-- `writeField`: none is `OUT_OF_RANGE`, found before any bit is touched (40_bitfield_codec.md R121, R123). -/
def writeField (b : Buffer) (startBit : StartBit) (bitLength : BitLength) (value : RawCount) : Option Buffer :=
  if inRange startBit bitLength then some (bufWrite b startBit.toNat bitLength.toNat value) else none

/-- `readField`: none is `OUT_OF_RANGE` (40_bitfield_codec.md R125). -/
def readField (b : Buffer) (startBit : StartBit) (bitLength : BitLength) : Option RawCount :=
  if inRange startBit bitLength then some (bufRead b startBit.toNat bitLength.toNat) else none

/-- The response word of `WRFLD`: on `OUT_OF_RANGE` the buffer is the request's (30_encoding.md R91). -/
def wrfldWord (b : Buffer) (startBit : StartBit) (bitLength : BitLength) (value : RawCount) : Word128 :=
  match writeField b startBit bitLength value with
  | some b' => wrfldResponse .ok b'
  | none => wrfldResponse .outOfRange b

/-- The response word of `RDFLD` (30_encoding.md R92). -/
def rdfldWord (b : Buffer) (startBit : StartBit) (bitLength : BitLength) : Word128 :=
  match readField b startBit bitLength with
  | some v => rdfldResponse v
  | none => Status.outOfRange.response

/-- `WRFLD` (40_bitfield_codec.md R121). -/
def execWrfld (buffer : Buffer) (startBit : StartBit) (bitLength : BitLength) (value : RawCount) (s : State) :
    Host.Outcome State Fault Refusal :=
  .next (s.answer (wrfldWord buffer startBit bitLength value))

/-- `RDFLD` (40_bitfield_codec.md R125). -/
def execRdfld (buffer : Buffer) (startBit : StartBit) (bitLength : BitLength) (s : State) : Host.Outcome State Fault Refusal :=
  .next (s.answer (rdfldWord buffer startBit bitLength))

end Sys2Proof.Machine
end

