-- ==== Sys2Proof/Machine/Comparator.lean ====
section
/-! DEFINITION. The threshold comparator: `CLASSIFY` (42_classifier.md). -/

namespace Sys2Proof.Machine

/-- `CLASSIFY`, always `OK` (42_classifier.md R156). -/
def execClassify (raw : RawCount) (thr : Quantity) (cmp : Cmp) (s : State) : Host.Outcome State Fault Refusal :=
  .next (s.answer (classifyResponse (isWarning raw thr cmp)))

end Sys2Proof.Machine
end

