-- ==== Sys2Proof/Machine/Descriptors.lean ====
section
/-! DEFINITION. The Signal Descriptor Table: `LOOKUP` (41_descriptor_lookup.md). -/

namespace Sys2Proof.Machine

/-- The scan for an identifier, lowest index first, exact match on all 11 bits (41_descriptor_lookup.md R143). -/
def lookupSignal (t : Table) (id : FrameId) : Option (Fin Config.numSignals) :=
  [0, 1, 2].find? fun i => (t.entry i).frameId == id

/-- The response word of `LOOKUP` (30_encoding.md R93). -/
def lookupWord (t : Table) (id : FrameId) : Word128 :=
  match lookupSignal t id with
  | some i => lookupResponse i (t.entry i)
  | none => Status.unknownSignal.response

/-- `LOOKUP` (41_descriptor_lookup.md R143). -/
def execLookup (frameId : FrameId) (s : State) : Host.Outcome State Fault Refusal :=
  .next (s.answer (lookupWord Config.table frameId))

end Sys2Proof.Machine
end

