-- ==== Sys2Proof/Machine/FrameDecoder.lean ====
section
/-! DEFINITION. The Frame Decoder: `DECODE` (43_frame_decoder.md). -/

namespace Sys2Proof.Machine

/-- The three outcomes of decoding a frame (43_frame_decoder.md R172). -/
inductive Decoded where
  | sample (x : Sample)
  | unknownSignal
  | outOfRange
deriving DecidableEq, Repr

/-- The steps of `DECODE`: lookup, read, classify (43_frame_decoder.md R171). The frame's length is no input (R176). -/
def decodeFrame (t : Table) (id : FrameId) (payload : Buffer) : Decoded :=
  match lookupSignal t id with
  | none => .unknownSignal
  | some i =>
    match readField payload (t.entry i).startBit (t.entry i).bitLength with
    | none => .outOfRange
    | some raw => .sample ⟨id, raw, (t.entry i).scale, isWarning raw (t.entry i).thr (t.entry i).cmp⟩

/-- The response word of `DECODE`, which is the record handed to `env.emit` (30_encoding.md R95, R100). -/
def decodeWord (t : Table) (id : FrameId) (payload : Buffer) : Word128 :=
  match decodeFrame t id payload with
  | .sample x => sampleResponse x
  | .unknownSignal => noSampleResponse id .unknownSignal
  | .outOfRange => noSampleResponse id .outOfRange

/-- `DECODE` (43_frame_decoder.md R171); `length` is carried and not interpreted (R176). -/
def execDecode (frameId : FrameId) (_length : BitVec 4) (payload : Buffer) (s : State) :
    Host.Outcome State Fault Refusal :=
  .next (s.answer (decodeWord Config.table frameId payload))

end Sys2Proof.Machine
end

