-- ==== Sys2Proof/Machine/FrameEncoder.lean ====
section
/-! DEFINITION. The Frame Encoder and its sweep generator: `ENCNEXT` (44_frame_encoder.md). -/

namespace Sys2Proof.Machine

/-- The steps of `ENCNEXT` on one descriptor and its sweep: zero payload, round, write, advance; none is `OUT_OF_RANGE`,
with the sweep not advanced (44_frame_encoder.md R186 to R192). -/
def encodeNext (d : Descriptor) (w : Sweep) : Option (TxFrame × Sweep) :=
  match writeField 0#64 d.startBit d.bitLength (roundHalfUp w.current) with
  | some payload => some (⟨d.frameId, .eight, payload⟩, w.advance)
  | none => none

/-- `ENCNEXT` of signal `i` on the engine: the frame and the engine with that one sweep advanced
(44_frame_encoder.md R185, R186). -/
def encodeSignal (t : Table) (i : Fin Config.numSignals) (e : Engine) : Option (TxFrame × Engine) :=
  match encodeNext (t.entry i) (e.sweep.get i) with
  | some (f, w) => some (f, { e with sweep := e.sweep.set i w })
  | none => none

/-- `ENCNEXT` of a legal index, requested in context `SEQ` (44_frame_encoder.md R186). -/
def encnextSignal (t : Table) (i : Fin Config.numSignals) (s : State) : State :=
  match encodeSignal t i s.engine with
  | some (f, e) => { s with engine := e }.answer (encnextResponse f.frame)
  | none => s.answer Status.outOfRange.response

/-- `ENCNEXT` in context `SEQ`, which permits it: the encoding check, then the operation (60_exceptions.md R267, R276;
log 16). -/
def execEncnext (sigIdx : BitVec 2) (s : State) : Host.Outcome State Fault Refusal :=
  match signalOf sigIdx with
  | none => .next s.answerIllegal
  | some i => .next (encnextSignal Config.table i s)

end Sys2Proof.Machine
end

