-- ==== Sys2Proof/Machine/Transmit.lean ====
section
/-! DEFINITION. The Channel Transmit Contract: `SEND` (45_channel_transmit.md). -/

namespace Sys2Proof.Machine

/-- How one pass of `SEND`'s loop ends (45_channel_transmit.md R211). -/
inductive Pass where
  /-- The channel took the frame. -/
  | sent
  /-- `Busy` at the bound. -/
  | saturated
  /-- `Busy` below the bound: try again at once. -/
  | again
deriving DecidableEq, Repr

/-- The decision of one pass: the `Sent` test, then the bound test (45_channel_transmit.md R211, R213 (d)). -/
def sendPass (r : TxAnswer) (n maxRetry : RetryCount) : Pass :=
  match r with
  | .sent => .sent
  | .busy => if n = maxRetry then .saturated else .again

/-- The retries already made by the `SEND` on the SEQ port: 0 when it starts (45_channel_transmit.md R211). -/
def State.sendCount (s : State) : RetryCount := if s.sending then s.engine.retry else 0#16

/-- One pass of a requested `SEND` (45_channel_transmit.md R211): one `env.trySend`, then the answer, or the request left
on its port for the next pass. -/
def sendStep (f : Frame) (maxRetry : RetryCount) (s : State) : State :=
  match sendPass (s.trySend f).1 s.sendCount maxRetry with
  | .sent => ((s.trySend f).2.setRetry s.sendCount).answer Status.ok.response
  | .saturated => ((s.trySend f).2.setRetry s.sendCount).answer Status.channelSaturated.response
  | .again => { ((s.trySend f).2.setRetry (s.sendCount + 1#16)).clearResponse with sending := true }

/-- `SEND` in context `SEQ`, which permits it: one pass of its loop a step (45_channel_transmit.md R211, R214; log 4). -/
def execSend (frameId : FrameId) (length : BitVec 4) (payload : Buffer) (maxRetry : RetryCount) (s : State) :
    Host.Outcome State Fault Refusal :=
  .next (sendStep ⟨frameId, length, payload⟩ maxRetry s)

end Sys2Proof.Machine
end

