-- ==== Sys2Proof/Machine/Dispatch.lean ====
section
/-! DEFINITION. One arm per operation (00_scope.md R6). -/

namespace Sys2Proof.Machine

def exec (i : Instr) (s : State) : Host.Outcome State Fault Refusal :=
  match i with
  | .wrfld buffer startBit bitLength value => Sys2Proof.Machine.execWrfld buffer startBit bitLength value s
  | .rdfld buffer startBit bitLength => Sys2Proof.Machine.execRdfld buffer startBit bitLength s
  | .lookup frameId => Sys2Proof.Machine.execLookup frameId s
  | .classify raw thr cmp => Sys2Proof.Machine.execClassify raw thr cmp s
  | .decode frameId length payload => Sys2Proof.Machine.execDecode frameId length payload s
  | .encnext sigIdx => Sys2Proof.Machine.execEncnext sigIdx s
  | .send frameId length payload maxRetry => Sys2Proof.Machine.execSend frameId length payload maxRetry s

end Sys2Proof.Machine
end

