-- ==== Sys2Proof/Machine/Sequencer.lean ====
section
/-! DEFINITION. The Poll Loop: one function per phase and the sequencer's step (46_sequencer.md R229 to R237). The phases
run `DECODE`, `ENCNEXT` and `SEND` in context `SEQ` on typed operands (log 18). -/

namespace Sys2Proof.Machine

/-- Phase `DRAIN_CHECK` (46_sequencer.md R230). -/
def drainCheck (s : State) : State :=
  s.fillLevel.2.setPhase (if s.fillLevel.1 = 0#8 then .tick else .drainPop)

/-- Phase `DRAIN_POP` with the popped frame and the rest of the queue: decode, emit the record whatever its status
(46_sequencer.md R231). -/
def drainPop (p : Params) (f : Frame) (rest : List Frame) (s : State) : State :=
  ((({ s with env := { s.env with rxQueue := rest } }.log (.pop f)).log
    (.emit (decodeWord p.table f.id f.payload))).setPhase .drainCheck)

/-- Phase `TICK` (46_sequencer.md R232). -/
def tickStep (s : State) : State :=
  if h : s.engine.tick.val + 1 < Config.genPeriod then
    { s with engine := { s.engine with tick := ⟨s.engine.tick.val + 1, h⟩, phase := .sleep } }
  else { s with engine := { s.engine with tick := 0, sigIdx := 0, phase := .genEncode } }

/-- Phase `GEN_ENCODE` (46_sequencer.md R233). -/
def genEncode (p : Params) (s : State) : State :=
  match encodeSignal p.table s.engine.sigIdx s.engine with
  | some (f, e) => { s with engine := { e with txFrame := f, retry := 0#16, phase := .genSend } }
  | none => s.setPhase .genNext

/-- Phase `GEN_SEND`: one pass of `SEND`'s loop on `S.txFrame` with `MAX_RETRY` (46_sequencer.md R234). -/
def genSend (p : Params) (s : State) : State :=
  match sendPass (s.trySend s.engine.txFrame.frame).1 s.engine.retry p.maxRetry with
  | .sent => (s.trySend s.engine.txFrame.frame).2.setPhase .genNext
  | .saturated => (s.trySend s.engine.txFrame.frame).2.setPhase .genNext
  | .again => (s.trySend s.engine.txFrame.frame).2.setRetry (s.engine.retry + 1#16)

/-- Phase `GEN_NEXT` (46_sequencer.md R235). -/
def genNext (s : State) : State :=
  if h : s.engine.sigIdx.val + 1 < Config.numSignals then
    { s with engine := { s.engine with sigIdx := ⟨s.engine.sigIdx.val + 1, h⟩, phase := .genEncode } }
  else s.setPhase .sleep

/-- Phase `SLEEP`: the step is the return of `env.sleep` (46_sequencer.md R236, R245; log 14). -/
def sleepStep (s : State) : State := (s.log (.sleep Config.sleepMs)).setPhase .drainCheck

/-- The phase's step, after the environment's own step. `DRAIN_POP` on an empty queue is stuck (46_sequencer.md R246). -/
def phaseStep (p : Params) (s : State) : Host.Outcome State Fault Refusal :=
  match s.engine.phase with
  | .drainCheck => .next (drainCheck s)
  | .drainPop =>
    match s.env.rxQueue with
    | f :: rest => .next (drainPop p f rest s)
    | [] => .fault .rxQueueEmpty
  | .tick => .next (tickStep s)
  | .genEncode => .next (genEncode p s)
  | .genSend => .next (genSend p s)
  | .genNext => .next (genNext s)
  | .sleep => .next (sleepStep s)

/-- One step of the sequencer: the environment may act first (46_sequencer.md R229, R247). No operation requested on the SEQ
port ends in it (log 19). -/
def sequencerStep (p : Params) (s : State) : Host.Outcome State Fault Refusal := phaseStep p s.arrive.clearResponse

end Sys2Proof.Machine
end

