-- ==== Sys2Proof/Machine/Step.lean ====
section
/-! DEFINITION. One step of the machine: the reset event, else a request on the SEQ port, else one step of the sequencer. A
direct request is no step (00_scope.md R13; Direct.lean). -/

namespace Sys2Proof.Machine

/-- A request word served: decoded and run, or answered `ILLEGAL_OP` (30_encoding.md R83, R104; 60_exceptions.md R267). -/
def serve (w : Word128) (s : State) : Host.Outcome State Fault Refusal :=
  match decode w with
  | .ok i => exec i s
  | .error _ => .next s.answerIllegal

/-- One step. Reset comes first (70_reset_and_hazards.md R300), then a request on the SEQ port, then the poll loop
(46_sequencer.md R229); log 3. -/
def step (s : State) : Host.Outcome State Fault Refusal :=
  if s.resetLine then .next s.applyReset
  else
    match s.seqPort.request with
    | some w => serve w s
    | none => sequencerStep Config.params s

/-- The request word with these bits waits on the SEQ port, where every operation is permitted, no reset goes before it, and
no `SEND` is in progress (log 3). -/
def State.withFetchWord (s : State) (nbits w : Nat) : State :=
  { s with
    resetLine := false
    sending := false
    seqPort := { s.seqPort with request := some (BitVec.ofNat 128 (w % 2 ^ nbits)) } }

end Sys2Proof.Machine
end

