-- ==== Sys2Proof/Machine/Direct.lean ====
section
/-! DEFINITION. Requests in context `DIRECT`: a pure function of the request word and the table, and no step of the machine
(00_scope.md R13; 20_memory.md R67; 60_exceptions.md R275, R276). -/

namespace Sys2Proof.Machine

/-- The response word of an operation that reads no state. `ENCNEXT` and `SEND` have none: they read and write `S` or call
the environment (60_exceptions.md R276). -/
def pureResponse : Instr → Option Word128
  | .wrfld buffer startBit bitLength value => some (wrfldWord buffer startBit bitLength value)
  | .rdfld buffer startBit bitLength => some (rdfldWord buffer startBit bitLength)
  | .lookup frameId => some (lookupWord Config.table frameId)
  | .classify raw thr cmp => some (classifyResponse (isWarning raw thr cmp))
  | .decode frameId _ payload => some (decodeWord Config.table frameId payload)
  | .encnext _ => none
  | .send _ _ _ _ => none

/-- The response word of a direct request: the checks in the order encoding, context, operation (60_exceptions.md R264,
R267, R275, R276; 30_encoding.md R104). -/
def directResponse (w : Word128) : Word128 :=
  match decode w with
  | .error _ => Status.illegalOp.response
  | .ok i =>
    match permitted i .direct, pureResponse i with
    | true, some q => q
    | _, _ => Status.notPermitted.response

/-- The response words of the direct requests in progress, each beside its request: one exists as long as its request is in
progress (10_state.md R21), and no order among them or with a step shows (20_memory.md R67). -/
def State.directResponses (s : State) : List Word128 := s.directRequests.map directResponse

end Sys2Proof.Machine
end

