-- ==== Sys2Proof/Safety.lean ====
section
/-! DEFINITION. The terms the claims use: what an answer to a request leaves unchanged, which words are legal, and the
invariant of the machine. -/

namespace Sys2Proof.Machine

/-- The status code of a response word (60_exceptions.md R260). -/
def statusOf (q : Word128) : BitVec 4 := q.extractLsb' 0 4

/-- From `s` to `t` the request on the SEQ port has been answered with `q`: the port has given up the request and holds the
response, no `SEND` is in progress, and the direct requests and the reset line are as before. -/
def Responded (s t : State) (q : Word128) : Prop :=
  t.seqPort = ⟨none, some q⟩ ∧ t.sending = false ∧ t.directRequests = s.directRequests ∧ t.resetLine = s.resetLine

/-- The engine state, the environment and the trace are the same. -/
def SameInside (s t : State) : Prop := t.engine = s.engine ∧ t.env = s.env ∧ t.trace = s.trace

/-- No operation requested on the SEQ port has ended: the request there, a `SEND` in progress, the direct requests and the
reset line are the same, and no response stands on the port. -/
def SamePorts (s t : State) : Prop :=
  t.seqPort = ⟨s.seqPort.request, none⟩ ∧ t.sending = s.sending ∧ t.directRequests = s.directRequests ∧
    t.resetLine = s.resetLine

/-- An outcome with these direct requests in progress instead. -/
def askingDirect (ws : List Word128) : Host.Outcome State Fault Refusal → Host.Outcome State Fault Refusal
  | .next t => .next { t with directRequests := ws }
  | .fault r => .fault r
  | .refused r => .refused r

/-- Nothing goes before the sequencer: no reset event and no request on the SEQ port (log 3). -/
def Idle (s : State) : Prop := s.resetLine = false ∧ s.seqPort.request = none

/-- The operations permitted in context `SEQ` only (60_exceptions.md R276). -/
def SeqOnly : Instr → Prop
  | .encnext _ => True
  | .send _ _ _ _ => True
  | .wrfld _ _ _ _ => False
  | .rdfld _ _ _ => False
  | .lookup _ => False
  | .classify _ _ _ => False
  | .decode _ _ _ => False

/-- The legal request words: under one opcode's mask the word is that opcode, and an `ENCNEXT` has no index 3
(30_encoding.md R104; the masks are those of the opcode table and of 95_test_vectors.md section 2.8). -/
def LegalWord (w : Word128) : Prop :=
  w &&& 0x000000000000000000000000FF0000FF#128 = 1#128 ∨
  w &&& 0x0000000000000000FFFFFFFFFF0000FF#128 = 2#128 ∨
  w &&& 0xFFFFFFFFFFFFFFFFFFFFFFFFFFF800FF#128 = 3#128 ∨
  w &&& 0xFFFFFFFF0000000000000000FFFFFFEF#128 = 4#128 ∨
  w &&& 0x0000000000000000FFFFFFFFFFF8000F#128 = 5#128 ∨
  (w &&& 0xFFFFFFFFFFFFFFFFFFFFFFFFFFFFFCFF#128 = 6#128 ∧ w.extractLsb' 8 2 ≠ 3#2) ∨
  w &&& 0x0000000000000000FFFF0000FFF8000F#128 = 7#128

/-- A sweep whose `current` its own advance has set at least once is like this (10_state.md R35). -/
def SweepSettled (w : Sweep) : Prop := w.current.toNat ≤ w.max.toNat ∨ w.current = w.min

/-- Two sweeps with the same `step`, `min` and `max`. -/
def SameLimits (w x : Sweep) : Prop := x.step = w.step ∧ x.min = w.min ∧ x.max = w.max

/-- The invariant of the engine state: the retry count within its bound, the limits of the sweeps at their reset values, and
in phase `GEN_SEND` a frame of the signal at hand (10_state.md R29, R35). -/
def EngineInv (e : Engine) : Prop :=
  e.retry.toNat ≤ Config.maxRetry.toNat ∧
  (∀ i, SameLimits (Engine.reset.sweep.get i) (e.sweep.get i)) ∧
  (e.phase = .genSend → e.txFrame.length = .eight ∧ e.txFrame.id = (Config.table.entry e.sigIdx).frameId)

/-- The invariant of the machine: the engine's, a frame to pop in phase `DRAIN_POP` (46_sequencer.md R246 (a)), and a
sequencer that is the only one to use the SEQ port (30_encoding.md R106). -/
def MachineInv (s : State) : Prop :=
  EngineInv s.engine ∧ (s.engine.phase = .drainPop → s.env.rxQueue ≠ []) ∧
  s.seqPort.request = none ∧ s.sending = false

/-- The event is a call of `env.trySend`. -/
def IsTrySend (e : Event) : Prop := ∃ f a, e = .trySend f a

end Sys2Proof.Machine
end

