-- ==== Sys2Proof/Certificates/Slice0/Obligations.lean ====
section
/-! DEFINITION. The statements for the provers, in the order of spec/. A docstring names the rules a statement formalises. -/

open Sys2Proof Sys2Proof.Machine

/-! ### Encoding (30_encoding.md) -/

/-- Words written out from the formats of 30_encoding.md R84 to R89 decode to the operations they stand for. -/
def Obligations.RequestWordsDecodeAsWritten : Prop :=
  decode 0x0000000000000000000004B0000C0601#128 = .ok (.wrfld 0#64 6#8 12#8 1200#32) ∧
  decode 0x0123456789ABCDEF0000000000200402#128 = .ok (.rdfld 0x0123456789ABCDEF#64 4#8 32#8) ∧
  decode 0x0000000000000000000000000007FF03#128 = .ok (.lookup 0x7FF#11) ∧
  decode 0x000000000001A400000001A500000014#128 = .ok (.classify 421#32 107520#32 .gt) ∧
  decode 0x000001A50000000000000000000600F5#128 = .ok (.decode 0x600#11 15#4 0x1A500000000#64) ∧
  decode 0x00000000000000000000000000000206#128 = .ok (.encnext 2#2) ∧
  decode 0x0000000000012C000000000200040087#128 = .ok (.send 0x400#11 8#4 0x12C00#64 2#16)

/-- No bit of an encoding is dropped: every well-formed operation is what its word decodes to. -/
def Obligations.DecodeOfEncodeIsIdentity : Prop := ∀ i : Instr, i.wf = true → decode (encode i) = .ok i

/-- Every word that decodes at all is the word of the operation it decodes to, which is well-formed. -/
def Obligations.EncodeOfDecodeIsIdentity : Prop :=
  ∀ (w : Word128) (i : Instr), decode w = .ok i → i.wf = true ∧ encode i = w

/-- The decoder accepts exactly the words that pass the legality masks (30_encoding.md R104). -/
def Obligations.DecoderAcceptsExactlyLegalWords : Prop :=
  ∀ w : Word128, (∃ i, decode w = .ok i) ↔ LegalWord w

/-- An illegal word is answered with the bare status 4 in either context; on the SEQ port that changes nothing else
(30_encoding.md R104, 60_exceptions.md R264, R267). That a word from outside is served before the loop's next phase is the
model's choice (log 3), and so is that no frame arrives in that step (log 5). -/
def Obligations.IllegalWordAnsweredWithoutEffect : Prop :=
  ∀ w : Word128, ¬ LegalWord w → directResponse w = 4#128 ∧
    ∀ s : State, s.resetLine = false → s.seqPort.request = some w →
      ∃ t, step s = .next t ∧ Responded s t 4#128 ∧ SameInside s t

/-- A step at which a request waits on the SEQ port runs the operation the request decodes to, and nothing around it; so does
a step after withFetchWord. The model's choice: log 3. -/
def Obligations.StepRunsTheDecodedRequest : Prop :=
  (∀ (s : State) (w : Word128) (i : Instr), s.resetLine = false → s.seqPort.request = some w → decode w = .ok i →
    step s = exec i s) ∧
  (∀ (s : State) (nbits w : Nat) (i : Instr), decodeTableWord nbits w = some i →
    step (s.withFetchWord nbits w) = exec i (s.withFetchWord nbits w))

/-! ### The payload buffer (20_memory.md) and the codec (40_bitfield_codec.md) -/

/-- 20_memory.md R52: a read is the number `(B >> s) mod 2^n`, and bit `k` of it is buffer bit `s + k`. -/
def Obligations.BufferReadIsTheFieldNumber : Prop :=
  ∀ (b : Buffer) (s n : Nat), 1 ≤ n → n ≤ 32 → s + n ≤ 64 →
    (bufRead b s n).toNat = b.toNat / 2 ^ s % 2 ^ n ∧
    ∀ k, k < n → (bufRead b s n).getLsbD k = b.getLsbD (s + k)

/-- 20_memory.md R53: a write puts `v mod 2^n` into the field, leaves every bit outside it, and looks at nothing of `v`
above `n`. -/
def Obligations.BufferWriteReplacesOnlyTheField : Prop :=
  ∀ (b : Buffer) (s n : Nat) (v : RawCount), 1 ≤ n → n ≤ 32 → s + n ≤ 64 →
    (bufWrite b s n v).toNat =
      b.toNat / 2 ^ (s + n) * 2 ^ (s + n) + v.toNat % 2 ^ n * 2 ^ s + b.toNat % 2 ^ s ∧
    (bufWrite b s n v).toNat / 2 ^ s % 2 ^ n = v.toNat % 2 ^ n ∧
    (∀ k, k < 64 → ¬ (s ≤ k ∧ k < s + n) → (bufWrite b s n v).getLsbD k = b.getLsbD k) ∧
    (∀ v' : RawCount, v'.toNat % 2 ^ n = v.toNat % 2 ^ n → bufWrite b s n v' = bufWrite b s n v)

/-- WRFLD, every operand and both contexts: it completes; inside the range the field holds the value's low bits and every
other buffer bit is the request's, outside the range the buffer is the request's and the status 1; nothing else changes
(40_bitfield_codec.md R121 to R123, 30_encoding.md R91). -/
def Obligations.WrfldWritesTheFieldOrNothing : Prop :=
  ∀ (b : Buffer) (start : StartBit) (len : BitLength) (v : RawCount) (s : State),
    ∃ t q, exec (.wrfld b start len v) s = .next t ∧ Responded s t q ∧ SameInside s t ∧
      directResponse (encode (.wrfld b start len v)) = q ∧
      q.extractLsb' 4 60 = 0#60 ∧
      if 1 ≤ len.toNat ∧ len.toNat ≤ 32 ∧ start.toNat + len.toNat ≤ 64 then
        statusOf q = 0#4 ∧
        ∀ k, k < 64 → q.getLsbD (64 + k) =
          if start.toNat ≤ k ∧ k < start.toNat + len.toNat then v.getLsbD (k - start.toNat) else b.getLsbD k
      else statusOf q = 1#4 ∧ q.extractLsb' 64 64 = b

/-- RDFLD, every operand and both contexts: it completes with the field zero-extended to 32 bits, or with status 1 and value
0; nothing else changes (40_bitfield_codec.md R125, R126, 30_encoding.md R92). -/
def Obligations.RdfldReadsTheFieldOrZero : Prop :=
  ∀ (b : Buffer) (start : StartBit) (len : BitLength) (s : State),
    ∃ t q, exec (.rdfld b start len) s = .next t ∧ Responded s t q ∧ SameInside s t ∧
      directResponse (encode (.rdfld b start len)) = q ∧
      q.extractLsb' 4 28 = 0#28 ∧ q.extractLsb' 64 64 = 0#64 ∧
      if 1 ≤ len.toNat ∧ len.toNat ≤ 32 ∧ start.toNat + len.toNat ≤ 64 then
        statusOf q = 0#4 ∧
        ∀ k, k < 32 → q.getLsbD (32 + k) = (decide (k < len.toNat) && b.getLsbD (start.toNat + k))
      else statusOf q = 1#4 ∧ q.extractLsb' 32 32 = 0#32

/-- Round trip through the response words, for every buffer (40_bitfield_codec.md R128). -/
def Obligations.ReadAfterWriteReturnsTheLowBits : Prop :=
  ∀ (b : Buffer) (start : StartBit) (len : BitLength) (v : RawCount),
    1 ≤ len.toNat → len.toNat ≤ 32 → start.toNat + len.toNat ≤ 64 →
    ((rdfldWord ((wrfldWord b start len v).extractLsb' 64 64) start len).extractLsb' 32 32).toNat =
      v.toNat % 2 ^ len.toNat

/-- Two fields that do not overlap are written in either order with one result and each reads back its own value
(40_bitfield_codec.md R129). -/
def Obligations.DisjointFieldsDoNotDisturbEachOther : Prop :=
  ∀ (b : Buffer) (start₁ start₂ : StartBit) (len₁ len₂ : BitLength) (v₁ v₂ : RawCount),
    1 ≤ len₁.toNat → len₁.toNat ≤ 32 → start₁.toNat + len₁.toNat ≤ 64 →
    1 ≤ len₂.toNat → len₂.toNat ≤ 32 → start₂.toNat + len₂.toNat ≤ 64 →
    (start₁.toNat + len₁.toNat ≤ start₂.toNat ∨ start₂.toNat + len₂.toNat ≤ start₁.toNat) →
    ∃ b₁ b₂ b', writeField b start₁ len₁ v₁ = some b₁ ∧ writeField b start₂ len₂ v₂ = some b₂ ∧
      writeField b₁ start₂ len₂ v₂ = some b' ∧ writeField b₂ start₁ len₁ v₁ = some b' ∧
      (∃ r, readField b' start₁ len₁ = some r ∧ r.toNat = v₁.toNat % 2 ^ len₁.toNat) ∧
      (∃ r, readField b' start₂ len₂ = some r ∧ r.toNat = v₂.toNat % 2 ^ len₂.toNat)

/-! ### The descriptor table (41_descriptor_lookup.md) -/

/-- LOOKUP, every identifier and both contexts: it completes with the three words of this hardware's table, and with the
bare status 2 for every other identifier; nothing else changes (41_descriptor_lookup.md R142 to R144, 30_encoding.md R93). -/
def Obligations.LookupKnowsExactlyThreeIdentifiers : Prop :=
  ∀ (id : FrameId) (s : State), ∃ t q, exec (.lookup id) s = .next t ∧ Responded s t q ∧ SameInside s t ∧
    directResponse (encode (.lookup id)) = q ∧
    q =
      (if id = 0x400#11 then 0x0005DC00000000640C06040000000000#128
       else if id = 0x500#11 then 0x000064000000000A0810050000000010#128
       else if id = 0x600#11 then 0x0001A4000001000A0C20060000000020#128
       else 2#128)

/-- For any table the scan finds the lowest index whose entry has the identifier (41_descriptor_lookup.md R143). -/
def Obligations.LookupTakesTheLowestMatch : Prop :=
  ∀ (tbl : Table) (id : FrameId) (i : Fin Config.numSignals),
    lookupSignal tbl id = some i ↔ (tbl.entry i).frameId = id ∧ ∀ j, j < i → (tbl.entry j).frameId ≠ id

/-- The table of this hardware is well-formed, and with a well-formed table DECODE and ENCNEXT never meet OUT_OF_RANGE
(41_descriptor_lookup.md R145). -/
def Obligations.WellFormedTableIsNeverOutOfRange : Prop :=
  Config.table.wf = true ∧
  ∀ tbl : Table, tbl.wf = true →
    (∀ id payload, decodeFrame tbl id payload ≠ .outOfRange) ∧
    (∀ i e, encodeSignal tbl i e ≠ none)

/-! ### The comparator (42_classifier.md) -/

/-- CLASSIFY, every operand and both contexts: it completes with status 0 and bit 4 set exactly when `raw * 256` is at
least (GE) or above (GT) the threshold, computed with no wrap; nothing else changes (42_classifier.md R156). -/
def Obligations.ClassifyComparesRawTimes256 : Prop :=
  ∀ (raw : RawCount) (thr : Quantity) (cmp : Cmp) (s : State),
    ∃ t q, exec (.classify raw thr cmp) s = .next t ∧ Responded s t q ∧ SameInside s t ∧
      directResponse (encode (.classify raw thr cmp)) = q ∧
      statusOf q = 0#4 ∧ q.extractLsb' 5 123 = 0#123 ∧
      (q.getLsbD 4 = true ↔
        match cmp with
        | .ge => thr.toNat ≤ raw.toNat * 256
        | .gt => thr.toNat < raw.toNat * 256)

/-- The integer comparison is the comparison of the physical value with the warning threshold over the rationals, for every
descriptor scale (42_classifier.md R157). -/
def Obligations.ClassifierIsTheRationalComparison : Prop :=
  ∀ (x : Sample) (d : Descriptor), 1 ≤ d.scale.toNat → x.scale = d.scale →
    (isWarning x.rawValue d.thr d.cmp = true ↔
      match d.cmp with
      | .ge => d.warnThreshold ≤ x.physicalValue
      | .gt => d.warnThreshold < x.physicalValue)

/-- The two comparisons differ at equality and nowhere else (42_classifier.md R158 (a)). -/
def Obligations.ComparisonsDifferOnlyAtEquality : Prop :=
  ∀ (raw : RawCount) (thr : Quantity),
    isWarning raw thr .ge ≠ isWarning raw thr .gt ↔ raw.toNat * 256 = thr.toNat

/-! ### The frame decoder (43_frame_decoder.md) -/

/-- DECODE, every frame and both contexts: it completes; a known identifier gives the field of its own descriptor, its scale
and its verdict, any other identifier status 2 and no sample; the identifier is echoed; nothing else changes
(43_frame_decoder.md R171 to R173, 30_encoding.md R95). -/
def Obligations.DecodeRoutesByIdentifier : Prop :=
  ∀ (id : FrameId) (length : BitVec 4) (p : Buffer) (s : State),
    ∃ t q, exec (.decode id length p) s = .next t ∧ Responded s t q ∧ SameInside s t ∧
      directResponse (encode (.decode id length p)) = q ∧
      q.extractLsb' 5 11 = id ∧ q.extractLsb' 64 64 = 0#64 ∧
      if id = 0x400#11 then
        statusOf q = 0#4 ∧ q.extractLsb' 16 16 = 100#16 ∧
        (q.extractLsb' 32 32).toNat = p.toNat / 2 ^ 6 % 2 ^ 12 ∧
        (q.getLsbD 4 = true ↔ 384000 ≤ p.toNat / 2 ^ 6 % 2 ^ 12 * 256)
      else if id = 0x500#11 then
        statusOf q = 0#4 ∧ q.extractLsb' 16 16 = 10#16 ∧
        (q.extractLsb' 32 32).toNat = p.toNat / 2 ^ 16 % 2 ^ 8 ∧
        (q.getLsbD 4 = true ↔ 25600 ≤ p.toNat / 2 ^ 16 % 2 ^ 8 * 256)
      else if id = 0x600#11 then
        statusOf q = 0#4 ∧ q.extractLsb' 16 16 = 10#16 ∧
        (q.extractLsb' 32 32).toNat = p.toNat / 2 ^ 32 % 2 ^ 12 ∧
        (q.getLsbD 4 = true ↔ 107520 < p.toNat / 2 ^ 32 % 2 ^ 12 * 256)
      else statusOf q = 2#4 ∧ q.getLsbD 4 = false ∧ q.extractLsb' 16 48 = 0#48

/-- 43_frame_decoder.md R176: the length operand of DECODE is not read. -/
def Obligations.DecodeDoesNotReadTheLength : Prop :=
  ∀ (id : FrameId) (length₁ length₂ : BitVec 4) (p : Buffer) (s : State),
    exec (.decode id length₁ p) s = exec (.decode id length₂ p) s ∧
    directResponse (encode (.decode id length₁ p)) = directResponse (encode (.decode id length₂ p))

/-- With an ill-formed entry DECODE answers status 1 with the identifier and no sample, and an unknown identifier is found
first (43_frame_decoder.md R172). -/
def Obligations.DecodeOfIllFormedEntryIsOutOfRange : Prop :=
  ∀ (tbl : Table) (id : FrameId) (p : Buffer),
    (∀ i, lookupSignal tbl id = some i →
      ¬ (1 ≤ (tbl.entry i).bitLength.toNat ∧ (tbl.entry i).bitLength.toNat ≤ 32 ∧
          (tbl.entry i).startBit.toNat + (tbl.entry i).bitLength.toNat ≤ 64) →
      decodeWord tbl id p = 0#112 ++ id ++ 0#1 ++ 1#4) ∧
    (lookupSignal tbl id = none → decodeWord tbl id p = 0#112 ++ id ++ 0#1 ++ 2#4)

/-! ### The frame encoder and the sweeps (44_frame_encoder.md) -/

/-- 44_frame_encoder.md R188: rounding is half up, `floor(q / 256 + 1/2)`, formed without wrap. -/
def Obligations.RoundingIsHalfUp : Prop :=
  ∀ q : Quantity, (roundHalfUp q).toNat = (q.toNat + 128) / 256 ∧
    ((roundHalfUp q).toNat : ℤ) = ⌊(q.toNat : ℚ) / 256 + 1 / 2⌋

/-- ENCNEXT in context SEQ, every legal index: it completes with status 0, the signal's identifier, length 8 and a payload
that is zero but for the rounded `current`; of the engine only that sweep's `current` changes, to `min` if the sum is
strictly above `max`, else to the sum; nothing else changes (44_frame_encoder.md R186 to R190, 30_encoding.md R96). -/
def Obligations.EncnextBuildsTheFrameAndAdvances : Prop :=
  ∀ (sig : BitVec 2) (h : sig.toNat < Config.numSignals) (s : State),
    let i : Fin Config.numSignals := ⟨sig.toNat, h⟩
    let d := Config.table.entry i
    let w := s.engine.sweep.get i
    ∃ t q, exec (.encnext sig) s = .next t ∧ Responded s t q ∧ t.env = s.env ∧ t.trace = s.trace ∧
      statusOf q = 0#4 ∧ q.extractLsb' 4 4 = 8#4 ∧ q.extractLsb' 8 11 = d.frameId ∧ q.extractLsb' 19 45 = 0#45 ∧
      (q.extractLsb' 64 64).toNat =
        (w.current.toNat + 128) / 256 % 2 ^ d.bitLength.toNat * 2 ^ d.startBit.toNat ∧
      t.engine = { s.engine with sweep := t.engine.sweep } ∧
      (∀ j, j ≠ i → t.engine.sweep.get j = s.engine.sweep.get j) ∧
      SameLimits w (t.engine.sweep.get i) ∧
      if w.max.toNat < w.current.toNat + w.step.toNat then (t.engine.sweep.get i).current = w.min
      else (t.engine.sweep.get i).current.toNat = w.current.toNat + w.step.toNat

/-- On an ill-formed entry ENCNEXT returns no frame and does not advance the sweep: the engine answers nothing to use
(44_frame_encoder.md R192). Stated of the shared operation, since this hardware's table is well-formed. -/
def Obligations.FailedEncodeDoesNotAdvance : Prop :=
  ∀ (tbl : Table) (i : Fin Config.numSignals) (s : State),
    ¬ (1 ≤ (tbl.entry i).bitLength.toNat ∧ (tbl.entry i).bitLength.toNat ≤ 32 ∧
        (tbl.entry i).startBit.toNat + (tbl.entry i).bitLength.toNat ≤ 64) →
    Responded s (encnextSignal tbl i s) 1#128 ∧ SameInside s (encnextSignal tbl i s)

/-- The voltage sweep of this hardware after `k` advances, and the raw count its next frame carries
(44_frame_encoder.md R194). -/
def Obligations.VoltageSweepRepeatsAfter101Advances : Prop :=
  ∀ k : Nat, (Sweep.advance^[k] Config.sweepResetVoltage) =
      { Config.sweepResetVoltage with current := BitVec.ofNat 32 (307200 + 512 * (k % 101)) } ∧
    (roundHalfUp (Sweep.advance^[k] Config.sweepResetVoltage).current).toNat = 1200 + 2 * (k % 101)

/-- For every well-formed table: a frame built by ENCNEXT decodes, on the same table, to the rounded raw count cut to the
field, with its descriptor's scale and verdict (44_frame_encoder.md R195, R190; 41_descriptor_lookup.md R146). -/
def Obligations.DecodeUndoesEncode : Prop :=
  ∀ (tbl : Table) (i : Fin Config.numSignals) (e : Engine), tbl.wf = true →
    ∃ f e' x, encodeSignal tbl i e = some (f, e') ∧ decodeFrame tbl f.frame.id f.frame.payload = .sample x ∧
      f.frame.length = 8#4 ∧ x.frameId = (tbl.entry i).frameId ∧ x.scale = (tbl.entry i).scale ∧
      x.rawValue.toNat = ((e.sweep.get i).current.toNat + 128) / 256 % 2 ^ (tbl.entry i).bitLength.toNat ∧
      x.isWarning = isWarning x.rawValue (tbl.entry i).thr (tbl.entry i).cmp

/-- Once advanced, a sweep stays at or below `max` or at `min`: an encode brings it there and no step but a reset takes it
away (10_state.md R35). -/
def Obligations.AdvancedSweepsStaySettled : Prop :=
  (∀ (tbl : Table) (i : Fin Config.numSignals) (e e' : Engine) (f : TxFrame),
    encodeSignal tbl i e = some (f, e') → SweepSettled (e'.sweep.get i)) ∧
  (∀ (s t : State) (i : Fin Config.numSignals), s.resetLine = false → step s = .next t →
    SweepSettled (s.engine.sweep.get i) → SweepSettled (t.engine.sweep.get i))

/-- Only an ENCNEXT moves a sweep, and only its `current`: the sequencer's in phase GEN_ENCODE, or one requested on
the SEQ port (10_state.md R26; 70_reset_and_hazards.md R316). The model's choice, log 3: an ENCNEXT requested on the
SEQ port from outside is served by a step of its own, in any phase and before the loop's (hence that disjunct, and
Idle in the other); R316 speaks of the loop's own ENCNEXT. -/
def Obligations.OnlyEncnextMovesASweep : Prop :=
  ∀ (s t : State) (i : Fin Config.numSignals), s.resetLine = false → step s = .next t →
    SameLimits (s.engine.sweep.get i) (t.engine.sweep.get i) ∧
    ((t.engine.sweep.get i).current ≠ (s.engine.sweep.get i).current →
      (Idle s ∧ s.engine.phase = .genEncode ∧ s.engine.sigIdx = i) ∨
      (∃ w sig, s.seqPort.request = some w ∧ decode w = .ok (.encnext sig) ∧ sig.toNat = i.val))

/-! ### Transmission (45_channel_transmit.md) -/

/-- SEND in context SEQ, one pass of its loop with the channel's answer `a`: one trySend event with the operand frame;
`Sent` completes it with status 0, `Busy` at the bound with status 3, `Busy` below the bound leaves the request waiting with
one retry more; only `S.retry` changes in the engine (45_channel_transmit.md R211, R213). The model's own: one pass a
step is log 4, no frame arriving in it is log 5, the list of coming answers is log 6. -/
def Obligations.SendPassOffersTheFrameOnce : Prop :=
  ∀ (id : FrameId) (length : BitVec 4) (p : Buffer) (m : RetryCount) (s : State) (a : TxAnswer) (rest : List TxAnswer),
    s.env.txAnswers = a :: rest →
    let n := if s.sending then s.engine.retry else 0#16
    ∃ t, exec (.send id length p m) s = .next t ∧
      t.trace = s.trace ++ [.trySend ⟨id, length, p⟩ a] ∧ t.env = { s.env with txAnswers := rest } ∧
      match a with
      | .sent => Responded s t 0#128 ∧ t.engine = { s.engine with retry := n }
      | .busy =>
        if n = m then Responded s t 3#128 ∧ t.engine = { s.engine with retry := n }
        else t.seqPort = ⟨s.seqPort.request, none⟩ ∧ t.directRequests = s.directRequests ∧ t.sending = true ∧
          t.resetLine = s.resetLine ∧ t.engine = { s.engine with retry := n + 1#16 }

/-- A SEND that meets `k` busy answers and then `Sent`, with `k` within its bound, ends after `k + 1` passes with status 0
and `S.retry = k`; a SEND that meets busy answers only ends after `maxretry + 1` passes with status 3 and
`S.retry = maxretry` (45_channel_transmit.md R213 (c), (d), R215). The model's
own: the passes are served before any phase of the loop (log 3), one pass a step (log 4), no frame
arrives between them, which R247 would allow (log 5), and the coming answers stand in a list (log 6). -/
def Obligations.SendEndsWithinItsBound : Prop :=
  ∀ (id : FrameId) (length : BitVec 4) (p : Buffer) (m : RetryCount) (s : State) (rest : List TxAnswer),
    s.resetLine = false → s.sending = false →
    s.seqPort.request = some (encode (.send id length p m)) →
    (∀ k, k ≤ m.toNat → s.env.txAnswers = List.replicate k .busy ++ .sent :: rest →
      ∃ t, Sys2Proof.core.run (k + 1) s = .next t ∧ Responded s t 0#128 ∧
        t.engine = { s.engine with retry := BitVec.ofNat 16 k } ∧ t.env = { s.env with txAnswers := rest } ∧
        t.trace = s.trace ++ (List.replicate k (.trySend ⟨id, length, p⟩ .busy) ++ [.trySend ⟨id, length, p⟩ .sent])) ∧
    (s.env.txAnswers = List.replicate (m.toNat + 1) .busy ++ rest →
      ∃ t, Sys2Proof.core.run (m.toNat + 1) s = .next t ∧ Responded s t 3#128 ∧
        t.engine = { s.engine with retry := m } ∧ t.env = { s.env with txAnswers := rest } ∧
        t.trace = s.trace ++ List.replicate (m.toNat + 1) (.trySend ⟨id, length, p⟩ .busy))

/-! ### The poll loop (46_sequencer.md) -/

/-- 46_sequencer.md R230: phase DRAIN_CHECK. The arrivals before the step are log 5, a queue of more than 255 frames
log 7. Idle: a request on the SEQ port from outside would go first (log 3). -/
def Obligations.DrainCheckAsksTheFillLevel : Prop :=
  ∀ s : State, Idle s → s.engine.phase = .drainCheck →
    ∃ n t, step s = .next t ∧ SamePorts s t ∧ t.trace = s.trace ++ [.fillLevel n] ∧
      t.engine = { s.engine with phase := if 0 < n.toNat then .drainPop else .tick } ∧
      t.env.rxQueue = s.env.arrive.rxQueue ∧
      (s.env.arrive.rxQueue.length < 256 → n.toNat = s.env.arrive.rxQueue.length)

/-- 46_sequencer.md R231: phase DRAIN_POP takes the oldest frame and emits the response word that DECODE gives for it,
whatever its status. The arrivals before the step are log 5, DECODE on typed operands log 18. Idle: a request on the
SEQ port from outside would go first (log 3). -/
def Obligations.DrainPopDecodesAndEmits : Prop :=
  ∀ (s : State) (f : Frame) (rest : List Frame), Idle s → s.engine.phase = .drainPop →
    s.env.arrive.rxQueue = f :: rest →
    ∃ rec t, step s = .next t ∧ SamePorts s t ∧ t.trace = s.trace ++ [.pop f, .emit rec] ∧
      t.engine = { s.engine with phase := .drainCheck } ∧ t.env = { s.env.arrive with rxQueue := rest } ∧
      ∀ u : State, ∃ u', exec (.decode f.id f.length f.payload) u = .next u' ∧ Responded u u' rec

/-- With an empty queue phase DRAIN_POP is stuck (46_sequencer.md R246; the fault is the model's form of it, log 8).
Idle: a request on the SEQ port from outside would go first (log 3). -/
def Obligations.EmptyQueueLeavesDrainPopStuck : Prop :=
  ∀ s : State, Idle s → s.engine.phase = .drainPop → s.env.arrive.rxQueue = [] →
    step s = .fault .rxQueueEmpty

/-- 46_sequencer.md R232: phase TICK. That frames arrive before the step, and in this form, is the model's choice: log
5. Idle: a request on the SEQ port from outside would go first (log 3). -/
def Obligations.TickStartsAGeneratePhaseEveryTenthCycle : Prop :=
  ∀ s : State, Idle s → s.engine.phase = .tick →
    ∃ t, step s = .next t ∧ SamePorts s t ∧ t.trace = s.trace ∧ t.env = s.env.arrive ∧
      t.engine = { s.engine with tick := t.engine.tick, sigIdx := t.engine.sigIdx, phase := t.engine.phase } ∧
      if s.engine.tick.val + 1 = 10 then
        t.engine.tick.val = 0 ∧ t.engine.sigIdx.val = 0 ∧ t.engine.phase = .genEncode
      else
        t.engine.tick.val = s.engine.tick.val + 1 ∧ t.engine.sigIdx = s.engine.sigIdx ∧ t.engine.phase = .sleep

/-- 46_sequencer.md R233: phase GEN_ENCODE for any table: on OK the frame is kept, the retry count cleared and the
sweep advanced; on OUT_OF_RANGE only the phase changes. The first clause says the step is that phase's with this
hardware's table, after the environment's arrivals (log 5); the phase runs ENCNEXT on typed operands (log 18). Idle: a
request on the SEQ port from outside would go first (log 3). -/
def Obligations.GenEncodeLoadsTheFrame : Prop :=
  (∀ s : State, Idle s → s.engine.phase = .genEncode → step s = .next (genEncode Config.params s.arrive.clearResponse)) ∧
  ∀ (p : Params) (s : State), (genEncode p s).seqPort = s.seqPort ∧ (genEncode p s).sending = s.sending ∧
    (genEncode p s).directRequests = s.directRequests ∧ (genEncode p s).resetLine = s.resetLine ∧
    (genEncode p s).trace = s.trace ∧ (genEncode p s).env = s.env ∧
    (∀ f e, encodeSignal p.table s.engine.sigIdx s.engine = some (f, e) →
      (genEncode p s).engine =
        { s.engine with sweep := e.sweep, txFrame := f, retry := 0#16, phase := .genSend }) ∧
    (encodeSignal p.table s.engine.sigIdx s.engine = none →
      (genEncode p s).engine = { s.engine with phase := .genNext })

/-- 46_sequencer.md R234: phase GEN_SEND is one pass of SEND on the kept frame with MAX_RETRY. The arrivals before the
step are log 5, the form of the channel's answers log 6, SEND on typed operands log 18. Idle: a request on the SEQ
port from outside would go first (log 3). -/
def Obligations.GenSendMakesOneAttempt : Prop :=
  ∀ s : State, Idle s → s.engine.phase = .genSend →
    ∃ t a, step s = .next t ∧ SamePorts s t ∧
      t.trace = s.trace ++ [.trySend ⟨s.engine.txFrame.id, s.engine.txFrame.length.bits, s.engine.txFrame.payload⟩ a] ∧
      (∀ b rest, s.env.txAnswers = b :: rest → a = b ∧ t.env.txAnswers = rest) ∧
      t.env.rxQueue = s.env.arrive.rxQueue ∧
      t.engine =
        if a = .sent then { s.engine with phase := .genNext }
        else if s.engine.retry = Config.maxRetry then { s.engine with phase := .genNext }
        else { s.engine with retry := s.engine.retry + 1#16 }

/-- 46_sequencer.md R235: phase GEN_NEXT. The arrivals before the step are log 5. Idle: a request on the SEQ port from
outside would go first (log 3). -/
def Obligations.GenNextWalksTheSignalsInOrder : Prop :=
  ∀ s : State, Idle s → s.engine.phase = .genNext →
    ∃ t, step s = .next t ∧ SamePorts s t ∧ t.trace = s.trace ∧ t.env = s.env.arrive ∧
      t.engine = { s.engine with sigIdx := t.engine.sigIdx, phase := t.engine.phase } ∧
      if s.engine.sigIdx.val = 2 then t.engine.sigIdx = s.engine.sigIdx ∧ t.engine.phase = .sleep
      else t.engine.sigIdx.val = s.engine.sigIdx.val + 1 ∧ t.engine.phase = .genEncode

/-- 46_sequencer.md R236: phase SLEEP, its step being the return of the sleep (log 14). The arrivals before the step
are log 5. Idle: a request on the SEQ port from outside would go first (log 3). -/
def Obligations.SleepReturnsToDrainCheck : Prop :=
  ∀ s : State, Idle s → s.engine.phase = .sleep →
    ∃ t, step s = .next t ∧ SamePorts s t ∧ t.trace = s.trace ++ [.sleep 10#16] ∧ t.env = s.env.arrive ∧
      t.engine = { s.engine with phase := .drainCheck }

/-- The environment acts between the steps (log 5, log 6). From the start of a generate phase, whatever the channel
answers, the phase ends within its bound of steps and of trySend calls, with nothing else in the trace, and each sweep
has advanced exactly once (46_sequencer.md R248 (a), R249). Idle: a request on the SEQ port from outside would go
first (log 3). -/
def Obligations.GeneratePhaseEndsAndAdvancesEachSweepOnce : Prop :=
  ∀ s : State, Idle s → s.engine.phase = .genEncode → s.engine.sigIdx.val = 0 →
    ∃ k t es, Sys2Proof.core.run k s = .next t ∧ k ≤ 3 * (Config.maxRetry.toNat + 1) + 6 ∧
      t.engine.phase = .sleep ∧ t.engine.tick = s.engine.tick ∧ SamePorts s t ∧
      t.trace = s.trace ++ es ∧ es.length ≤ 3 * (Config.maxRetry.toNat + 1) ∧ (∀ e ∈ es, IsTrySend e) ∧
      ∀ i, t.engine.sweep.get i = (s.engine.sweep.get i).advance

/-- The trace only grows, and a step adds to it only what its phase, or a SEND requested on the SEQ port, may do
(46_sequencer.md R238, R242, R243). The trace is a field of the model: log 1. The model's choice too: a SEND requested
on the SEQ port from outside is served in any phase, before the loop's (log 3, hence Idle), one pass a step (log 4),
and so adds a trySend outside GEN_SEND; R243 speaks of the loop's own calls. -/
def Obligations.TraceGrowsOnlyByThePhasesEvents : Prop :=
  ∀ s t : State, step s = .next t → ∃ es, t.trace = s.trace ++ es ∧
    (es = [] ∨
     (Idle s ∧ s.engine.phase = .drainCheck ∧ ∃ n, es = [.fillLevel n]) ∨
     (Idle s ∧ s.engine.phase = .drainPop ∧ ∃ f rec, es = [.pop f, .emit rec]) ∨
     (Idle s ∧ s.engine.phase = .genSend ∧ ∃ a, es = [.trySend s.engine.txFrame.frame a]) ∨
     (Idle s ∧ s.engine.phase = .sleep ∧ es = [.sleep 10#16]) ∨
     (s.resetLine = false ∧ ∃ w id length p m a, s.seqPort.request = some w ∧
       decode w = .ok (.send id length p m) ∧ es = [.trySend ⟨id, length, p⟩ a]))

/-! ### Outcomes and contexts (60_exceptions.md) -/

/-- 60_exceptions.md R276: in context DIRECT, ENCNEXT and SEND are refused with the bare status 5 and no other operation is; in
context SEQ every operation runs and none is refused. A request in context DIRECT, refused or not, has no effect: a step goes
as it would without it. -/
def Obligations.ContextDecidesWhatIsPermitted : Prop :=
  ∀ i : Instr, i.wf = true →
    (SeqOnly i → directResponse (encode i) = 5#128) ∧
    (¬ SeqOnly i → statusOf (directResponse (encode i)) ≠ 5#4) ∧
    (∀ s : State, ∃ t, exec i s = .next t ∧ ∀ q, Responded s t q → statusOf q ≠ 5#4) ∧
    (∀ s : State, step { s with directRequests := encode i :: s.directRequests } =
      askingDirect (encode i :: s.directRequests) (step s))

/-- No answer in either context has a status code above 5 (60_exceptions.md R260). -/
def Obligations.StatusCodesAboveFiveAreNeverProduced : Prop :=
  (∀ (i : Instr) (s t : State) (q : Word128), exec i s = .next t → Responded s t q → (statusOf q).toNat ≤ 5) ∧
  ∀ w : Word128, (statusOf (directResponse w)).toNat ≤ 5

/-- Direct requests, any number at once, are outside the machine: a step does the same whatever they ask and leaves them as
they are, each has the response of its own word at its place, and an operation that context DIRECT permits answers there as
it does on the SEQ port in every state, where it changes nothing inside (60_exceptions.md R275; 20_memory.md R67;
00_scope.md R13). The model's own: the list of direct requests is log 2; that a word on the SEQ port is answered in the very
next step, before the loop's phase, is log 3; that no frame arrives in that step is log 5. -/
def Obligations.DirectAnswersDependOnTheWordAlone : Prop :=
  (∀ (s : State) (ws : List Word128), step { s with directRequests := ws } = askingDirect ws (step s)) ∧
  (∀ (s : State) (k : Nat), s.directResponses[k]? = (s.directRequests[k]?).map directResponse) ∧
  (∀ (w : Word128) (i : Instr) (s : State), decode w = .ok i → ¬ SeqOnly i → s.resetLine = false →
    s.seqPort.request = some w → ∃ t, step s = .next t ∧ Responded s t (directResponse w) ∧ SameInside s t)

/-! ### Reset and the invariant (10_state.md, 70_reset_and_hazards.md) -/

/-- 10_state.md R34: the engine after reset. -/
def Obligations.ResetValuesOfTheEngine : Prop :=
  State.reset.engine.phase = .drainCheck ∧ State.reset.engine.tick.val = 0 ∧ State.reset.engine.sigIdx.val = 0 ∧
  State.reset.engine.retry = 0#16 ∧ State.reset.engine.txFrame = ⟨0#11, .zero, 0#64⟩ ∧
  State.reset.engine.sweep.get 0 = ⟨307200#32, 512#32, 307200#32, 358400#32⟩ ∧
  State.reset.engine.sweep.get 1 = Config.sweepResetCurrent ∧
  State.reset.engine.sweep.get 2 = Config.sweepResetTemperature

/-- The reset event at any phase and whatever waits: the engine is at its reset value, a SEND in progress is abandoned with no
status, and the environment, the trace and the direct requests are untouched (70_reset_and_hazards.md R300 to R302). The
reset line is the model's form of the event: log 15. -/
def Obligations.ResetEventTouchesOnlyTheEngine : Prop :=
  ∀ s : State, s.resetLine = true → ∃ t, step s = .next t ∧ t.engine = State.reset.engine ∧
    t.env = s.env ∧ t.trace = s.trace ∧ t.directRequests = s.directRequests ∧ t.seqPort = ⟨none, none⟩ ∧
    t.sending = false ∧ t.resetLine = false

/-- The state after reset satisfies the invariant. Its engine part is 10_state.md R34; that at reset no request waits on the
SEQ port and no SEND is in progress is the model's choice: log 11. -/
def Obligations.ResetSatisfiesTheInvariant : Prop := MachineInv State.reset

/-- Every step, of whatever kind, keeps the invariant (10_state.md R29, R35). That the invariant bars requests on the
SEQ port from outside is about the model's form of them (log 3). -/
def Obligations.EveryStepKeepsTheInvariant : Prop :=
  ∀ s t : State, MachineInv s → step s = .next t → MachineInv t

/-- Under the invariant the machine never stops: every phase has a step for every answer of the environment, and every
request is answered (46_sequencer.md R248 (c)). Progress past phase SLEEP takes it that every sleep returns (R245), since the
model's SLEEP step is that return: log 14. -/
def Obligations.MachineNeverStopsUnderTheInvariant : Prop :=
  ∀ s : State, MachineInv s → ∀ k, ∃ t, Sys2Proof.core.run k s = .next t ∧ MachineInv t
end

