-- ==== Sys2Proof/Laws/Widths.lean ====
section
/-! SUPPORT. The value of each width of 00_scope.md R5, for simp and for bounds of words. -/

namespace Sys2Proof.Laws

@[simp] theorem bufBits_eq : Config.bufBits = 64 := rfl
@[simp] theorem idBits_eq : Config.idBits = 11 := rfl
@[simp] theorem startW_eq : Config.startW = 8 := rfl
@[simp] theorem lenW_eq : Config.lenW = 8 := rfl
@[simp] theorem valW_eq : Config.valW = 32 := rfl
@[simp] theorem qW_eq : Config.qW = 32 := rfl
@[simp] theorem scaleW_eq : Config.scaleW = 16 := rfl
@[simp] theorem retryW_eq : Config.retryW = 16 := rfl
@[simp] theorem fillW_eq : Config.fillW = 8 := rfl
@[simp] theorem maxLen_eq : Config.maxLen = 32 := rfl
@[simp] theorem frac_eq : Config.frac = 8 := rfl
@[simp] theorem numSignals_eq : Config.numSignals = 3 := rfl
@[simp] theorem genPeriod_eq : Config.genPeriod = 10 := rfl

theorem buffer_lt (b : Buffer) : b.toNat < 2 ^ 64 := b.isLt
theorem rawCount_lt (v : RawCount) : v.toNat < 2 ^ 32 := v.isLt
theorem quantity_lt (q : Quantity) : q.toNat < 2 ^ 32 := q.isLt
theorem retryCount_lt (n : RetryCount) : n.toNat < 2 ^ 16 := n.isLt
theorem startBit_lt (n : StartBit) : n.toNat < 2 ^ 8 := n.isLt
theorem bitLength_lt (n : BitLength) : n.toNat < 2 ^ 8 := n.isLt

end Sys2Proof.Laws
end

