-- ==== Sys2Proof/Laws/State.lean ====
section
/-! SUPPORT. What each update of the state leaves of each field, true by rfl, for simp. -/

namespace Sys2Proof.Machine

namespace Laws

variable (s : State) (p : Phase) (n : RetryCount) (ev : Event) (q : Word128) (f : Frame)

@[simp] theorem setPhase_phase : (s.setPhase p).engine.phase = p := rfl
@[simp] theorem setPhase_tick : (s.setPhase p).engine.tick = s.engine.tick := rfl
@[simp] theorem setPhase_sigIdx : (s.setPhase p).engine.sigIdx = s.engine.sigIdx := rfl
@[simp] theorem setPhase_retry : (s.setPhase p).engine.retry = s.engine.retry := rfl
@[simp] theorem setPhase_txFrame : (s.setPhase p).engine.txFrame = s.engine.txFrame := rfl
@[simp] theorem setPhase_sweep : (s.setPhase p).engine.sweep = s.engine.sweep := rfl
@[simp] theorem setPhase_seqPort : (s.setPhase p).seqPort = s.seqPort := rfl
@[simp] theorem setPhase_directRequests : (s.setPhase p).directRequests = s.directRequests := rfl
@[simp] theorem setPhase_sending : (s.setPhase p).sending = s.sending := rfl
@[simp] theorem setPhase_resetLine : (s.setPhase p).resetLine = s.resetLine := rfl
@[simp] theorem setPhase_env : (s.setPhase p).env = s.env := rfl
@[simp] theorem setPhase_trace : (s.setPhase p).trace = s.trace := rfl

@[simp] theorem setRetry_phase : (s.setRetry n).engine.phase = s.engine.phase := rfl
@[simp] theorem setRetry_tick : (s.setRetry n).engine.tick = s.engine.tick := rfl
@[simp] theorem setRetry_sigIdx : (s.setRetry n).engine.sigIdx = s.engine.sigIdx := rfl
@[simp] theorem setRetry_retry : (s.setRetry n).engine.retry = n := rfl
@[simp] theorem setRetry_txFrame : (s.setRetry n).engine.txFrame = s.engine.txFrame := rfl
@[simp] theorem setRetry_sweep : (s.setRetry n).engine.sweep = s.engine.sweep := rfl
@[simp] theorem setRetry_seqPort : (s.setRetry n).seqPort = s.seqPort := rfl
@[simp] theorem setRetry_directRequests : (s.setRetry n).directRequests = s.directRequests := rfl
@[simp] theorem setRetry_sending : (s.setRetry n).sending = s.sending := rfl
@[simp] theorem setRetry_resetLine : (s.setRetry n).resetLine = s.resetLine := rfl
@[simp] theorem setRetry_env : (s.setRetry n).env = s.env := rfl
@[simp] theorem setRetry_trace : (s.setRetry n).trace = s.trace := rfl

@[simp] theorem log_engine : (s.log ev).engine = s.engine := rfl
@[simp] theorem log_seqPort : (s.log ev).seqPort = s.seqPort := rfl
@[simp] theorem log_directRequests : (s.log ev).directRequests = s.directRequests := rfl
@[simp] theorem log_sending : (s.log ev).sending = s.sending := rfl
@[simp] theorem log_resetLine : (s.log ev).resetLine = s.resetLine := rfl
@[simp] theorem log_env : (s.log ev).env = s.env := rfl
@[simp] theorem log_trace : (s.log ev).trace = s.trace ++ [ev] := rfl

@[simp] theorem arrive_engine : s.arrive.engine = s.engine := rfl
@[simp] theorem arrive_seqPort : s.arrive.seqPort = s.seqPort := rfl
@[simp] theorem arrive_directRequests : s.arrive.directRequests = s.directRequests := rfl
@[simp] theorem arrive_sending : s.arrive.sending = s.sending := rfl
@[simp] theorem arrive_resetLine : s.arrive.resetLine = s.resetLine := rfl
@[simp] theorem arrive_env : s.arrive.env = s.env.arrive := rfl
@[simp] theorem arrive_trace : s.arrive.trace = s.trace := rfl

@[simp] theorem fillLevel_answer : s.fillLevel.1 = s.env.fillLevel.1 := rfl
@[simp] theorem fillLevel_engine : s.fillLevel.2.engine = s.engine := rfl
@[simp] theorem fillLevel_seqPort : s.fillLevel.2.seqPort = s.seqPort := rfl
@[simp] theorem fillLevel_directRequests : s.fillLevel.2.directRequests = s.directRequests := rfl
@[simp] theorem fillLevel_sending : s.fillLevel.2.sending = s.sending := rfl
@[simp] theorem fillLevel_resetLine : s.fillLevel.2.resetLine = s.resetLine := rfl
@[simp] theorem fillLevel_env : s.fillLevel.2.env = s.env.fillLevel.2 := rfl
@[simp] theorem fillLevel_trace : s.fillLevel.2.trace = s.trace ++ [.fillLevel s.env.fillLevel.1] := rfl

@[simp] theorem trySend_answer : (s.trySend f).1 = s.env.txAnswer.1 := rfl
@[simp] theorem trySend_engine : (s.trySend f).2.engine = s.engine := rfl
@[simp] theorem trySend_seqPort : (s.trySend f).2.seqPort = s.seqPort := rfl
@[simp] theorem trySend_directRequests : (s.trySend f).2.directRequests = s.directRequests := rfl
@[simp] theorem trySend_sending : (s.trySend f).2.sending = s.sending := rfl
@[simp] theorem trySend_resetLine : (s.trySend f).2.resetLine = s.resetLine := rfl
@[simp] theorem trySend_env : (s.trySend f).2.env = s.env.txAnswer.2 := rfl
@[simp] theorem trySend_trace : (s.trySend f).2.trace = s.trace ++ [.trySend f s.env.txAnswer.1] := rfl

@[simp] theorem applyReset_engine : s.applyReset.engine = Engine.reset := rfl
@[simp] theorem applyReset_seqPort : s.applyReset.seqPort = ⟨none, none⟩ := rfl
@[simp] theorem applyReset_directRequests : s.applyReset.directRequests = s.directRequests := rfl
@[simp] theorem applyReset_sending : s.applyReset.sending = false := rfl
@[simp] theorem applyReset_resetLine : s.applyReset.resetLine = false := rfl
@[simp] theorem applyReset_env : s.applyReset.env = s.env := rfl
@[simp] theorem applyReset_trace : s.applyReset.trace = s.trace := rfl

@[simp] theorem answer_engine : (s.answer q).engine = s.engine := rfl
@[simp] theorem answer_seqPort : (s.answer q).seqPort = ⟨none, some q⟩ := rfl
@[simp] theorem answer_directRequests : (s.answer q).directRequests = s.directRequests := rfl
@[simp] theorem answer_sending : (s.answer q).sending = false := rfl
@[simp] theorem answer_resetLine : (s.answer q).resetLine = s.resetLine := rfl
@[simp] theorem answer_env : (s.answer q).env = s.env := rfl
@[simp] theorem answer_trace : (s.answer q).trace = s.trace := rfl

@[simp] theorem clearResponse_engine : s.clearResponse.engine = s.engine := rfl
@[simp] theorem clearResponse_seqRequest : s.clearResponse.seqPort.request = s.seqPort.request := rfl
@[simp] theorem clearResponse_seqResponse : s.clearResponse.seqPort.response = none := rfl
@[simp] theorem clearResponse_directRequests : s.clearResponse.directRequests = s.directRequests := rfl
@[simp] theorem clearResponse_sending : s.clearResponse.sending = s.sending := rfl
@[simp] theorem clearResponse_resetLine : s.clearResponse.resetLine = s.resetLine := rfl
@[simp] theorem clearResponse_env : s.clearResponse.env = s.env := rfl
@[simp] theorem clearResponse_trace : s.clearResponse.trace = s.trace := rfl

@[simp] theorem sweeps_get_set (w : Sweeps) (i : Fin Config.numSignals) (x : Sweep) : (w.set i x).get i = x := by
  match i with
  | 0 => rfl
  | 1 => rfl
  | 2 => rfl

theorem sweeps_get_set_of_ne (w : Sweeps) (i j : Fin Config.numSignals) (x : Sweep) (h : j ≠ i) :
    (w.set i x).get j = w.get j := by
  match i, j with
  | 0, 0 => exact absurd rfl h
  | 0, 1 => rfl
  | 0, 2 => rfl
  | 1, 0 => rfl
  | 1, 1 => exact absurd rfl h
  | 1, 2 => rfl
  | 2, 0 => rfl
  | 2, 1 => rfl
  | 2, 2 => exact absurd rfl h

end Laws

end Sys2Proof.Machine
end

