-- ==== Sys2Proof/Laws/Ops.lean ====
section
/-! SUPPORT. One lemma per shared operation: all it can do, for proofs to cite instead of unfolding it. -/

namespace Sys2Proof.Machine.Laws

open Sys2Proof.Laws

/-- The sideband bit and the context determine each other (30_encoding.md R106). -/
@[simp] theorem ctx_ofCode_code (c : Ctx) : Ctx.ofCode c.code = c := by cases c <;> rfl

@[simp] theorem ctx_code_ofCode (b : BitVec 1) : (Ctx.ofCode b).code = b := by
  rcases BitVec.eq_zero_or_eq_one b with h | h <;> rw [h] <;> rfl

/-- The range check as a proposition (20_memory.md R54). -/
theorem inRange_iff (startBit : StartBit) (bitLength : BitLength) :
    inRange startBit bitLength = true ↔
      1 ≤ bitLength.toNat ∧ bitLength.toNat ≤ 32 ∧ startBit.toNat + bitLength.toNat ≤ 64 := by
  simp [inRange, and_assoc]

/-- The mask holds ones exactly below `n` (00_scope.md R9). -/
theorem fieldMask_getLsbD (n b : Nat) (hn : n < 64) :
    (fieldMask n).getLsbD b = decide (b < n) := by
  have hpow : 2 ^ n < 2 ^ 64 := Nat.pow_lt_pow_right (by decide) hn
  have hpos : 0 < 2 ^ n := Nat.two_pow_pos n
  have key : (fieldMask n).toNat = 2 ^ n - 1 := by
    simp only [fieldMask, BitVec.toNat_sub, BitVec.toNat_shiftLeft, bufBits_eq, BitVec.toNat_ofNat,
      Nat.shiftLeft_eq]
    omega
  rw [← BitVec.testBit_toNat, key, Nat.testBit_two_pow_sub_one]

/-- The bits a read returns (20_memory.md R52). -/
theorem bufRead_getLsbD (b : Buffer) (s n k : Nat) (hn : n ≤ 32) :
    (bufRead b s n).getLsbD k = (decide (k < n) && b.getLsbD (s + k)) := by
  unfold bufRead
  by_cases hk : k < n
  · rw [BitVec.getLsbD_setWidth, BitVec.getLsbD_and, fieldMask_getLsbD n k (by omega),
      BitVec.getLsbD_ushiftRight]
    simp [hk, show k < 32 by omega]
  · by_cases h32 : k < 32
    · rw [BitVec.getLsbD_setWidth, BitVec.getLsbD_and, fieldMask_getLsbD n k (by omega)]
      simp [hk]
    · rw [BitVec.getLsbD_of_ge _ k (by rw [valW_eq]; omega)]
      simp [hk]

/-- The bits a write leaves: the value's inside the field, the buffer's outside it (20_memory.md R53). -/
theorem bufWrite_getLsbD (b : Buffer) (s n k : Nat) (v : RawCount) (hn : n ≤ 32) (hk : k < 64) :
    (bufWrite b s n v).getLsbD k = if s ≤ k ∧ k < s + n then v.getLsbD (k - s) else b.getLsbD k := by
  have hm : ∀ j, (fieldMask n).getLsbD j = decide (j < n) := fun j => fieldMask_getLsbD n j (by omega)
  unfold bufWrite
  simp only [BitVec.getLsbD_or, BitVec.getLsbD_and, BitVec.getLsbD_not, BitVec.getLsbD_shiftLeft,
    bufBits_eq, BitVec.getLsbD_setWidth, hk, hm (k - s)]
  by_cases h1 : s ≤ k
  · by_cases h2 : k < s + n
    · simp [h1, h2, show k - s < n by omega, show ¬ k < s by omega, show k - s < 64 by omega]
    · simp [h1, h2, show ¬ k - s < n by omega]
  · simp [h1, show k < s by omega]

/-- What the environment's own step does (46_sequencer.md R241, R247): frames go to the end of the queue. -/
theorem env_arrive_spec (e : Env) :
    ∃ fs, e.arrive.rxQueue = e.rxQueue ++ fs ∧ e.arrive.txAnswers = e.txAnswers ∧
      (∀ gs rest, e.arrivals = gs :: rest → fs = gs) := by
  unfold Env.arrive
  cases h : e.arrivals with
  | nil => exact ⟨_, rfl, rfl, by simp⟩
  | cons gs rest => exact ⟨gs, rfl, rfl, by simp⟩

/-- What a fill level answer is (46_sequencer.md R241): the queue is not changed, and an answer above zero means a frame. -/
theorem env_fillLevel_spec (e : Env) :
    e.fillLevel.2.rxQueue = e.rxQueue ∧ e.fillLevel.2.txAnswers = e.txAnswers ∧
      e.fillLevel.2.arrivals = e.arrivals ∧
      (e.rxQueue.length < 256 → e.fillLevel.1.toNat = e.rxQueue.length) ∧
      (e.fillLevel.1 ≠ 0#8 → e.rxQueue ≠ []) := by
  unfold Env.fillLevel
  by_cases h : e.rxQueue.length < 2 ^ Config.fillW
  · simp only [h, if_true, true_and]
    refine ⟨fun _ => Nat.mod_eq_of_lt h, fun hne hnil => hne ?_⟩
    rw [hnil]
    rfl
  · simp only [h, if_false, true_and]
    exact ⟨fun h' => absurd h' h, fun _ hnil => h (by simp [hnil])⟩

/-- What a call of `env.trySend` does to the environment (46_sequencer.md R243): it gives the listed answer. -/
theorem env_txAnswer_spec (e : Env) :
    e.txAnswer.2.rxQueue = e.rxQueue ∧ e.txAnswer.2.arrivals = e.arrivals ∧
      (∀ a rest, e.txAnswers = a :: rest → e.txAnswer.1 = a ∧ e.txAnswer.2.txAnswers = rest) := by
  unfold Env.txAnswer
  cases e.txAnswers <;> simp

/-- The advance changes `current` only, to `min` or to the sum (44_frame_encoder.md R189). -/
theorem advance_cases (w : Sweep) :
    (w.max.toNat < w.current.toNat + w.step.toNat ∧ w.advance = { w with current := w.min }) ∨
    (w.current.toNat + w.step.toNat ≤ w.max.toNat ∧ w.advance = { w with current := w.current + w.step }) := by
  have hc := quantity_lt w.current
  have hs := quantity_lt w.step
  have hm := quantity_lt w.max
  unfold Sweep.advance
  by_cases h : w.max.toNat < w.current.toNat + w.step.toNat
  · left
    refine ⟨h, ?_⟩
    have : (w.max.setWidth 33).ult (w.current.setWidth 33 + w.step.setWidth 33) = true := by
      simp only [BitVec.ult, BitVec.toNat_add, BitVec.toNat_setWidth, decide_eq_true_eq]
      omega
    simp [this]
  · right
    refine ⟨by omega, ?_⟩
    have : (w.max.setWidth 33).ult (w.current.setWidth 33 + w.step.setWidth 33) = false := by
      simp only [BitVec.ult, BitVec.toNat_add, BitVec.toNat_setWidth, decide_eq_false_iff_not]
      omega
    have hsum : (w.current.setWidth 33 + w.step.setWidth 33).setWidth 32 = w.current + w.step := by
      apply BitVec.eq_of_toNat_eq
      simp only [BitVec.toNat_setWidth, BitVec.toNat_add]
      omega
    simp [this, hsum]


end Sys2Proof.Machine.Laws
end

