-- ==== Sys2Proof/Laws/PerInstr.lean ====
section
/-! SUPPORT. Facts about every operation as syntax, one lemma per constructor. -/

namespace Sys2Proof.Laws

/-- The opcode of an operation (30_encoding.md R82). -/
def opcodeOf : Instr → BitVec 4
  | .wrfld _ _ _ _ => 0x1#4
  | .rdfld _ _ _ => 0x2#4
  | .lookup _ => 0x3#4
  | .classify _ _ _ => 0x4#4
  | .decode _ _ _ => 0x5#4
  | .encnext _ => 0x6#4
  | .send _ _ _ _ => 0x7#4

/-- The word of an operation holds its opcode in bits 3 to 0 (30_encoding.md R81, R82). -/
def EncodedOpcode.Statement (i : Instr) : Prop := (encode i).extractLsb' 0 4 = opcodeOf i

theorem extract_low_append {n : Nat} (x : BitVec n) (y : BitVec 4) : (x ++ y).extractLsb' 0 4 = y := by
  ext k hk
  simp [BitVec.getLsbD_append, hk]

theorem EncodedOpcode.wrfld (buffer : Buffer) (startBit : StartBit) (bitLength : BitLength) (value : RawCount) :
    EncodedOpcode.Statement (.wrfld buffer startBit bitLength value) := extract_low_append _ _

theorem EncodedOpcode.rdfld (buffer : Buffer) (startBit : StartBit) (bitLength : BitLength) :
    EncodedOpcode.Statement (.rdfld buffer startBit bitLength) := extract_low_append _ _

theorem EncodedOpcode.lookup (frameId : FrameId) : EncodedOpcode.Statement (.lookup frameId) :=
  extract_low_append _ _

theorem EncodedOpcode.classify (raw : RawCount) (thr : Quantity) (cmp : Cmp) :
    EncodedOpcode.Statement (.classify raw thr cmp) := extract_low_append _ _

theorem EncodedOpcode.decode (frameId : FrameId) (length : BitVec 4) (payload : Buffer) :
    EncodedOpcode.Statement (.decode frameId length payload) := extract_low_append _ _

theorem EncodedOpcode.encnext (sigIdx : BitVec 2) : EncodedOpcode.Statement (.encnext sigIdx) :=
  extract_low_append _ _

theorem EncodedOpcode.send (frameId : FrameId) (length : BitVec 4) (payload : Buffer) (maxRetry : RetryCount) :
    EncodedOpcode.Statement (.send frameId length payload maxRetry) := extract_low_append _ _

end Sys2Proof.Laws
end

