-- ==== Sys2Proof/Laws/Phases.lean ====
section
/-! SUPPORT. What a step can do, said once: which of the three kinds of step it is, and what each pass and phase may
answer. -/

namespace Sys2Proof.Machine.Laws

/-- A step is the reset event, the service of a request on the SEQ port, or a step of the sequencer (log 3). -/
theorem step_cases (s : State) :
    (s.resetLine = true ∧ step s = .next s.applyReset) ∨
    (s.resetLine = false ∧ ∃ w, s.seqPort.request = some w ∧ step s = serve w s) ∨
    (s.resetLine = false ∧ s.seqPort.request = none ∧ step s = sequencerStep Config.params s) := by
  unfold step
  cases s.resetLine with
  | true => simp
  | false => cases s.seqPort.request <;> simp

/-- Serving a word: its operation, or the answer to an illegal word (30_encoding.md R104). -/
theorem serve_cases (w : Word128) (s : State) :
    (∃ i, decode w = .ok i ∧ serve w s = exec i s) ∨
    (∃ e, decode w = .error e ∧ serve w s = .next s.answerIllegal) := by
  unfold serve
  cases decode w <;> simp

/-- A direct request: an illegal word, an operation that reads no state, or one that is not permitted
(60_exceptions.md R267, R276). -/
theorem directResponse_cases (w : Word128) :
    (∃ e, decode w = .error e ∧ directResponse w = Status.illegalOp.response) ∨
    (∃ i q, decode w = .ok i ∧ pureResponse i = some q ∧ directResponse w = q) ∨
    (∃ i, decode w = .ok i ∧ pureResponse i = none ∧ directResponse w = Status.notPermitted.response) := by
  unfold directResponse
  cases decode w with
  | error e => simp
  | ok i => cases i <;> simp [pureResponse, permitted]

/-- An operation that reads no state answers in context SEQ as in context DIRECT (60_exceptions.md R275). -/
theorem exec_of_pureResponse {i : Instr} {q : Word128} (h : pureResponse i = some q) (s : State) :
    exec i s = .next (s.answer q) := by
  cases i <;> cases h <;> rfl

/-- The decision of one pass of SEND's loop (45_channel_transmit.md R211). -/
theorem sendPass_cases (r : TxAnswer) (n maxRetry : RetryCount) :
    (r = .sent ∧ sendPass r n maxRetry = .sent) ∨
    (r = .busy ∧ n = maxRetry ∧ sendPass r n maxRetry = .saturated) ∨
    (r = .busy ∧ n ≠ maxRetry ∧ sendPass r n maxRetry = .again) := by
  unfold sendPass
  cases r with
  | sent => simp
  | busy => by_cases h : n = maxRetry <;> simp [h]

/-- The encoder: a frame of the descriptor and the advanced sweep, or the range check's refusal
(44_frame_encoder.md R186, R192). -/
theorem encodeNext_cases (d : Descriptor) (w : Sweep) :
    (inRange d.startBit d.bitLength = true ∧ encodeNext d w =
      some (⟨d.frameId, .eight, bufWrite 0#64 d.startBit.toNat d.bitLength.toNat (roundHalfUp w.current)⟩, w.advance)) ∨
    (inRange d.startBit d.bitLength = false ∧ encodeNext d w = none) := by
  unfold encodeNext writeField
  cases inRange d.startBit d.bitLength <;> simp

/-- The encoder on the engine: only `S.sweep[i]` changes (44_frame_encoder.md R186, R193 (e)). -/
theorem encodeSignal_cases (t : Table) (i : Fin Config.numSignals) (e : Engine) :
    (∃ f w, encodeNext (t.entry i) (e.sweep.get i) = some (f, w) ∧
      encodeSignal t i e = some (f, { e with sweep := e.sweep.set i w })) ∨
    (encodeNext (t.entry i) (e.sweep.get i) = none ∧ encodeSignal t i e = none) := by
  unfold encodeSignal
  cases encodeNext (t.entry i) (e.sweep.get i) with
  | none => simp
  | some x => exact .inl ⟨x.1, x.2, rfl, rfl⟩

/-- The phase's step, phase by phase (46_sequencer.md R237). -/
theorem phaseStep_cases (p : Params) (s : State) :
    (s.engine.phase = .drainCheck ∧ phaseStep p s = .next (drainCheck s)) ∨
    (s.engine.phase = .drainPop ∧ ∃ f rest, s.env.rxQueue = f :: rest ∧ phaseStep p s = .next (drainPop p f rest s)) ∨
    (s.engine.phase = .drainPop ∧ s.env.rxQueue = [] ∧ phaseStep p s = .fault .rxQueueEmpty) ∨
    (s.engine.phase = .tick ∧ phaseStep p s = .next (tickStep s)) ∨
    (s.engine.phase = .genEncode ∧ phaseStep p s = .next (genEncode p s)) ∨
    (s.engine.phase = .genSend ∧ phaseStep p s = .next (genSend p s)) ∨
    (s.engine.phase = .genNext ∧ phaseStep p s = .next (genNext s)) ∨
    (s.engine.phase = .sleep ∧ phaseStep p s = .next (sleepStep s)) := by
  unfold phaseStep
  cases s.engine.phase with
  | drainPop => cases s.env.rxQueue <;> simp
  | _ => simp

end Sys2Proof.Machine.Laws
end

