-- ==== Sys2Proof/Laws/Run.lean ====
section
/-! SUPPORT. Runs of several steps, and what an answer is in the terms of Safety.lean. -/

namespace Sys2Proof.Machine.Laws

@[simp] theorem run_zero (s : State) : Sys2Proof.core.run 0 s = .next s := rfl

/-- A run goes on from the next state. -/
theorem run_succ_of_next {s t : State} (k : Nat) (h : step s = .next t) :
    Sys2Proof.core.run (k + 1) s = Sys2Proof.core.run k t := by
  have h' : Sys2Proof.core.step s = .next t := h
  simp only [Host.Core.run, h']

/-- Two runs one after the other are one run. -/
theorem run_add {s t : State} (j k : Nat) (h : Sys2Proof.core.run j s = .next t) :
    Sys2Proof.core.run (j + k) s = Sys2Proof.core.run k t := by
  induction j generalizing s with
  | zero =>
    cases h
    simp
  | succ j ih =>
    rw [show j + 1 + k = (j + k) + 1 by omega]
    cases hs : step s with
    | next u => rw [run_succ_of_next _ hs] at h ⊢; exact ih h
    | fault r =>
      have h' : Sys2Proof.core.step s = .fault r := hs
      simp [Host.Core.run, h'] at h
    | refused r =>
      have h' : Sys2Proof.core.step s = .refused r := hs
      simp [Host.Core.run, h'] at h

/-- An answer is a response to the request on the SEQ port. -/
theorem responded_answer (s : State) (q : Word128) : Responded s (s.answer q) q := ⟨rfl, rfl, rfl, rfl⟩

/-- An answer is read back as the word that was given. -/
theorem responded_answer_unique {s : State} {u q : Word128} (h : Responded s (s.answer u) q) : q = u := by
  have := h.1
  simpa [eq_comm] using this

/-- An answer changes nothing inside. -/
theorem sameInside_answer (s : State) (q : Word128) : SameInside s (s.answer q) := ⟨rfl, rfl, rfl⟩

end Sys2Proof.Machine.Laws
end

