-- ==== Sys2Proof/Tests/Slice0.lean ====
section
/-! SUPPORT. Tests of the model on fixed values, each with the place in spec/ its expected result comes from, and for every
statement with hypotheses a concrete case that meets them. -/

namespace Sys2Proof.Tests

open Sys2Proof.Machine

/-! ### Small states -/

/-- An engine in a given phase, its sweeps those of program P3 (95_test_vectors.md). -/
def engineAt (p : Phase) : Engine where
  phase := p
  tick := 3
  sigIdx := 0
  retry := 0#16
  txFrame := ⟨0x400#11, .eight, 0x12C00#64⟩
  sweep := ⟨⟨307200#32, 512#32, 307200#32, 358400#32⟩, ⟨25600#32, 1280#32, 20480#32, 25600#32⟩,
    ⟨107520#32, 256#32, 102400#32, 110080#32⟩⟩

/-- No request, the queue and the coming answers as given, no frame about to arrive. -/
def calm (e : Engine) (queue : List Frame) (answers : List TxAnswer) : State :=
  ⟨e, ⟨none, none⟩, [], false, false, ⟨queue, [[]], answers, 0⟩, []⟩

/-- A state that holds nothing open, with a request word on the SEQ port and the channel's answers. -/
def seqAsks (w : Word128) (answers : List TxAnswer) : State :=
  ⟨engineAt .sleep, ⟨some w, none⟩, [], false, false, ⟨[], [], answers, 0⟩, []⟩

/-- The same with nothing on the SEQ port and the word as a direct request. -/
def directAsks (w : Word128) : State :=
  ⟨engineAt .sleep, ⟨none, none⟩, [w], false, false, ⟨[], [], [], 0⟩, []⟩

/-- A state in which the invariant holds. -/
def soundState : State := calm Engine.reset [] []

/-- What a test looks at in an outcome. -/
def look {α : Type} (o : Host.Outcome State Fault Refusal) (f : State → α) : Option α :=
  match o with
  | .next t => some (f t)
  | .fault _ => none
  | .refused _ => none

/-- The ill-formed table of 95_test_vectors.md sections 2.5 and 2.6: entry 0 sticks out past bit 63. -/
def illTable : Table := { Config.table with voltage := ⟨0x400#11, 60#8, 12#8, 100#16, 384000#32, .ge⟩ }

/-! ### WellFormed refuses (30_encoding.md R104 (c), 41_descriptor_lookup.md R145) -/

theorem test_wf_refuses_signal_three : (Instr.encnext 3#2).wf = false := by decide
theorem test_wf_refuses_length_zero : (Descriptor.mk 0#11 0#8 0#8 1#16 0#32 .ge).wf = false := by decide
theorem test_wf_refuses_length_33 : (Descriptor.mk 0#11 0#8 33#8 1#16 0#32 .ge).wf = false := by decide
theorem test_wf_refuses_field_past_bit_63 : (Descriptor.mk 0#11 33#8 32#8 1#16 0#32 .ge).wf = false := by decide
theorem test_wf_refuses_scale_zero : (Descriptor.mk 0#11 0#8 1#8 0#16 0#32 .ge).wf = false := by decide
theorem test_wf_refuses_duplicate_identifier :
    (Table.mk Config.table.voltage Config.table.current Config.table.voltage).wf = false ∧
    (Table.mk Config.table.voltage Config.table.voltage Config.table.temperature).wf = false ∧
    (Table.mk Config.table.voltage Config.table.current Config.table.current).wf = false := by decide
theorem test_wf_refuses_ill_formed_entry :
    illTable.wf = false ∧ { Config.table with current := illTable.voltage }.wf = false ∧
    { Config.table with temperature := illTable.voltage }.wf = false := by decide

/-! ### Decoding: words written out from 30_encoding.md R84 to R89, and illegal words of 95_test_vectors.md 2.8 -/

theorem test_decode_wrfld :
    decode 0x0123456789ABCDEF0000015500091C01#128 = .ok (.wrfld 0x0123456789ABCDEF#64 28#8 9#8 0x155#32) := by decide
theorem test_decode_rdfld :
    decode 0x0123456789ABCDEF0000000000091C02#128 = .ok (.rdfld 0x0123456789ABCDEF#64 28#8 9#8) := by decide
theorem test_decode_lookup : decode 0x00000000000000000000000000050003#128 = .ok (.lookup 0x500#11) := by decide
theorem test_decode_classify :
    decode 0x00000000000000FF0000000100000014#128 = .ok (.classify 1#32 255#32 .gt) := by decide
theorem test_decode_decode :
    decode 0x0000000000012C00000000000007FF35#128 = .ok (.decode 0x7FF#11 3#4 0x12C00#64) := by decide
theorem test_decode_encnext : decode 0x00000000000000000000000000000106#128 = .ok (.encnext 1#2) := by decide
theorem test_decode_send :
    decode 0x000001A4000000000000000200060087#128 = .ok (.send 0x600#11 8#4 0x1A400000000#64 2#16) := by decide
theorem test_decode_refuses_opcodes :
    decode 0#128 = .error .reservedOpcode ∧ decode 8#128 = .error .reservedOpcode ∧
    decode 15#128 = .error .reservedOpcode := by decide
theorem test_decode_refuses_reserved_bits :
    decode 0x0000000000000000000004B0000C0611#128 = .error .reservedBits ∧
    decode 0x0000000000012C0000000001000C0602#128 = .error .reservedBits ∧
    decode 0x000000000000000000000000000C0003#128 = .error .reservedBits ∧
    decode 0x000000000005DC00000005DC00000024#128 = .error .reservedBits ∧
    decode 0x0000000000012C008000000000040085#128 = .error .reservedBits ∧
    decode 0x00000000000000000000000000000406#128 = .error .reservedBits ∧
    decode 0x0000000000012C000001000200040087#128 = .error .reservedBits := by decide
theorem test_decode_refuses_signal_three :
    decode 0x00000000000000000000000000000306#128 = .error .reservedSignal := by decide
/-- 30_encoding.md R106: 0 is SEQ, 1 is DIRECT. -/
theorem test_ctx_codes : Ctx.seq.code = 0#1 ∧ Ctx.direct.code = 1#1 ∧ Ctx.ofCode 0#1 = .seq ∧ Ctx.ofCode 1#1 = .direct := by
  decide
theorem test_decode_table_word : decodeTableWord 128 0x206 = some (.encnext 2#2) := by decide

/-! ### Operations: a request word and its response word from 95_test_vectors.md -/

/-- W12: a field across bytes 3 and 4, in place. -/
theorem test_wrfld_in_place :
    look (step (seqAsks 0x0123456789ABCDEF0000015500091C01#128 [])) (·.seqPort) =
      some ⟨none, some 0x0123457559ABCDEF0000000000000000#128⟩ ∧
    directResponse 0x0123456789ABCDEF0000015500091C01#128 = 0x0123457559ABCDEF0000000000000000#128 := by decide
/-- W15: start + len = 65. -/
theorem test_wrfld_out_of_range :
    look (step (seqAsks 0x0123456789ABCDEFFFFFFFFF00202101#128 [])) (·.seqPort) =
      some ⟨none, some 0x0123456789ABCDEF0000000000000001#128⟩ ∧
    directResponse 0x0123456789ABCDEFFFFFFFFF00202101#128 = 0x0123456789ABCDEF0000000000000001#128 := by decide
/-- RD6: an unaligned 32-bit read. -/
theorem test_rdfld_unaligned :
    look (step (seqAsks 0x0123456789ABCDEF0000000000200402#128 [])) (·.seqPort.response) =
      some (some 0x0000000000000000789ABCDE00000000#128) ∧
    directResponse 0x0123456789ABCDEF0000000000200402#128 = 0x0000000000000000789ABCDE00000000#128 := by decide
/-- RD19: a 9-bit sum that must not wrap. -/
theorem test_rdfld_sum_does_not_wrap :
    look (step (seqAsks 0xFFFFFFFFFFFFFFFF000000000064C802#128 [])) (·.seqPort.response) =
      some (some 1#128) ∧
    directResponse 0xFFFFFFFFFFFFFFFF000000000064C802#128 = 1#128 := by decide
/-- L3. -/
theorem test_lookup_temperature :
    look (step (seqAsks 0x00000000000000000000000000060003#128 [])) (·.seqPort.response) =
      some (some 0x0001A4000001000A0C20060000000020#128) ∧
    directResponse 0x00000000000000000000000000060003#128 = 0x0001A4000001000A0C20060000000020#128 := by decide
/-- L7: no masks. -/
theorem test_lookup_unknown :
    look (step (seqAsks 0x00000000000000000000000000040103#128 [])) (·.seqPort.response) =
      some (some 2#128) ∧
    directResponse 0x00000000000000000000000000040103#128 = 2#128 := by decide
/-- K8: equality under GT. -/
theorem test_classify_equal_gt :
    look (step (seqAsks 0x000000000001A400000001A400000014#128 [])) (·.seqPort.response) =
      some (some 0#128) ∧
    directResponse 0x000000000001A400000001A400000014#128 = 0#128 := by decide
/-- K16: raw * 256 = 2^32 does not wrap. -/
theorem test_classify_does_not_wrap :
    look (step (seqAsks 0x00000000000000000100000000000014#128 [])) (·.seqPort.response) =
      some (some 0x10#128) ∧
    directResponse 0x00000000000000000100000000000014#128 = 0x10#128 := by decide
/-- DC14: temperature 42.1, and a length that is not read. -/
theorem test_decode_temperature :
    look (step (seqAsks 0x000001A50000000000000000000600F5#128 [])) (·.seqPort.response) =
      some (some 0x0000000000000000000001A5000AC010#128) ∧
    directResponse 0x000001A50000000000000000000600F5#128 = 0x0000000000000000000001A5000AC010#128 := by decide
/-- X4: unknown identifier, echoed. -/
theorem test_decode_unknown :
    look (step (seqAsks 0xFFFFFFFFFFFFFFFF0000000000011185#128 [])) (·.seqPort.response) =
      some (some 0x2222#128) ∧
    directResponse 0xFFFFFFFFFFFFFFFF0000000000011185#128 = 0x2222#128 := by decide
/-- E8: current 10.0, and a sum above max that goes to min. -/
theorem test_encnext_wraps :
    look (step (seqAsks 0x106#128 [])) (fun t => (t.seqPort.response, (t.engine.sweep.get 1).current)) =
      some (some 0x00000000006400000000000000050080#128, 20480#32) := by decide
/-- E3: a sum equal to max is kept. -/
theorem test_advance_keeps_max :
    (Sweep.mk 357888#32 512#32 307200#32 358400#32).advance.current = 358400#32 := by decide
/-- T6: maxretry 0 and a busy channel. -/
theorem test_send_saturated :
    look (step (seqAsks 0x0000000000012C000000000000040087#128 [.busy])) (fun t => (t.seqPort, t.trace)) =
      some (⟨none, some 3#128⟩, [.trySend ⟨0x400#11, 8#4, 0x12C00#64⟩ .busy]) := by decide
/-- T2: the first pass of a SEND that meets a busy channel leaves the request waiting with one retry made. -/
theorem test_send_waits :
    look (step (seqAsks 0x0000000000012C000000000200040087#128 [.busy, .sent]))
      (fun t => (t.seqPort.request, t.engine.retry, t.sending)) =
      some (some 0x0000000000012C000000000200040087#128, 1#16, true) := by decide
/-- I1 and I20: illegal word, and ENCNEXT in context DIRECT. -/
theorem test_refused_requests :
    (directAsks 0#128).directResponses = [4#128] ∧
    (directAsks 0x00000000000000000000000000000006#128).directResponses = [5#128] := by decide
/-- Example of 44_frame_encoder.md R188: an exact half rounds up. -/
theorem test_rounding : roundHalfUp 307327#32 = 1200#32 ∧ roundHalfUp 307328#32 = 1201#32 := by decide
/-- Q4: a popped frame is decoded and emitted. -/
theorem test_drain_pop :
    look (step (calm (engineAt .drainPop) [⟨0x600#11, 8#4, 0x1A500000000#64⟩] [])) (fun t => (t.engine.phase, t.trace)) =
      some (.drainCheck,
        [.pop ⟨0x600#11, 8#4, 0x1A500000000#64⟩, .emit 0x0000000000000000000001A5000AC010#128]) := by decide
/-- Q12 to Q14: retries up to the bound 2. -/
theorem test_gen_send_bound :
    let p : Params := ⟨Config.table, 2#16⟩
    (genSend p (calm (engineAt .genSend) [] [.busy])).engine.retry = 1#16 ∧
    (genSend p (calm { engineAt .genSend with retry := 2#16 } [] [.busy])).engine.phase = .genNext := by decide
/-- A word placed by withFetchWord runs as the next step. -/
theorem test_fetch_word_runs :
    look (step ((directAsks 0#128).withFetchWord 128 0x00000000000000000000000000040003))
      (·.seqPort.response) = some (some 0x0005DC00000000640C06040000000000#128) := by decide

/-! ### Witnesses: a concrete case that meets the hypotheses of each statement -/

theorem witness_DecodeOfEncodeIsIdentity : (Instr.encnext 2#2).wf = true ∧ (Instr.lookup 0x7FF#11).wf = true := by decide
theorem witness_EncodeOfDecodeIsIdentity : decode 0x206#128 = .ok (.encnext 2#2) := by decide
theorem witness_IllegalWordAnsweredWithoutEffect :
    ¬ LegalWord 0x306#128 ∧ (seqAsks 0x306#128 []).resetLine = false ∧
      (seqAsks 0x306#128 []).seqPort.request = some 0x306#128 := by
  refine ⟨?_, rfl, rfl⟩
  unfold LegalWord
  decide
theorem witness_StepRunsTheDecodedRequest :
    (seqAsks 0x206#128 []).resetLine = false ∧ (seqAsks 0x206#128 []).seqPort.request = some 0x206#128 ∧
      decode 0x206#128 = .ok (.encnext 2#2) ∧ decodeTableWord 128 0x206 = some (.encnext 2#2) := by decide
/-- The range hypotheses of BufferReadIsTheFieldNumber, BufferWriteReplacesOnlyTheField and ReadAfterWriteReturnsTheLowBits. -/
theorem witness_field_ranges :
    (1 ≤ (32#8).toNat ∧ (32#8).toNat ≤ 32 ∧ (32#8).toNat + (32#8).toNat ≤ 64) ∧
    (1 ≤ (1#8).toNat ∧ (1#8).toNat ≤ 32 ∧ (63#8).toNat + (1#8).toNat ≤ 64) := by decide
theorem witness_WrfldWritesTheFieldOrNothing :
    look (exec (.wrfld 0#64 32#8 32#8 0xDEADBEEF#32) (seqAsks 0#128 [])) (·.seqPort.response) =
      some (some 0xDEADBEEF000000000000000000000000#128) ∧
    look (exec (.wrfld 5#64 33#8 32#8 1#32) (seqAsks 0#128 [])) (·.seqPort.response) =
      some (some 0x00000000000000050000000000000001#128) := by decide
theorem witness_RdfldReadsTheFieldOrZero :
    look (exec (.rdfld 0x8000000000000000#64 63#8 1#8) (seqAsks 0#128 [])) (·.seqPort.response) =
      some (some 0x00000000000000000000000100000000#128) ∧
    look (exec (.rdfld 0x8000000000000000#64 63#8 2#8) (seqAsks 0#128 [])) (·.seqPort.response) = some (some 1#128) := by
  decide
theorem witness_DisjointFieldsDoNotDisturbEachOther :
    (6#8).toNat + (12#8).toNat ≤ (18#8).toNat ∧ (18#8).toNat + (8#8).toNat ≤ 64 ∧ 1 ≤ (8#8).toNat := by decide
theorem witness_LookupKnowsExactlyThreeIdentifiers :
    look (exec (.lookup 0x400#11) (seqAsks 0#128 [])) (·.seqPort.response) =
      some (some 0x0005DC00000000640C06040000000000#128) ∧
    look (exec (.lookup 0x500#11) (seqAsks 0#128 [])) (·.seqPort.response) =
      some (some 0x000064000000000A0810050000000010#128) ∧
    look (exec (.lookup 0x401#11) (seqAsks 0#128 [])) (·.seqPort.response) = some (some 2#128) := by decide
theorem witness_WellFormedTableIsNeverOutOfRange : Config.table.wf = true := by decide
theorem witness_ClassifierIsTheRationalComparison :
    1 ≤ Config.table.voltage.scale.toNat ∧
      (Sample.mk 0x400#11 1500#32 100#16 true).scale = Config.table.voltage.scale := by decide
theorem witness_ComparisonsDifferOnlyAtEquality :
    (1500#32).toNat * 256 = (384000#32).toNat ∧ (1499#32).toNat * 256 ≠ (384000#32).toNat := by decide
theorem witness_DecodeRoutesByIdentifier :
    look (exec (.decode 0x400#11 8#4 0x17700#64) (seqAsks 0#128 [])) (·.seqPort.response) =
      some (some 0x0000000000000000000005DC00648010#128) ∧
    look (exec (.decode 0x500#11 8#4 0x630000#64) (seqAsks 0#128 [])) (·.seqPort.response) =
      some (some 0x000000000000000000000063000AA000#128) ∧
    look (exec (.decode 0x600#11 8#4 0x1A400000000#64) (seqAsks 0#128 [])) (·.seqPort.response) =
      some (some 0x0000000000000000000001A4000AC000#128) ∧
    look (exec (.decode 0x601#11 8#4 0x1A400000000#64) (seqAsks 0#128 [])) (·.seqPort.response) =
      some (some 0x0000000000000000000000000000C022#128) := by decide
theorem witness_DecodeOfIllFormedEntryIsOutOfRange :
    lookupSignal illTable 0x400#11 = some 0 ∧
      ¬ (1 ≤ (illTable.entry 0).bitLength.toNat ∧ (illTable.entry 0).bitLength.toNat ≤ 32 ∧
        (illTable.entry 0).startBit.toNat + (illTable.entry 0).bitLength.toNat ≤ 64) ∧
      lookupSignal illTable 0x111#11 = none := by decide
theorem witness_EncnextBuildsTheFrameAndAdvances :
    (2#2).toNat < Config.numSignals ∧
      ¬ ((110080#32).toNat < (107520#32).toNat + (256#32).toNat) ∧ (25600#32).toNat < (25600#32).toNat + (1280#32).toNat := by
  decide
theorem witness_FailedEncodeDoesNotAdvance :
    ¬ (1 ≤ (illTable.entry 0).bitLength.toNat ∧ (illTable.entry 0).bitLength.toNat ≤ 32 ∧
        (illTable.entry 0).startBit.toNat + (illTable.entry 0).bitLength.toNat ≤ 64) := by decide
theorem witness_DecodeUndoesEncode : Config.table.wf = true := by decide
theorem witness_AdvancedSweepsStaySettled :
    (encodeSignal Config.table 0 (engineAt .genEncode)).isSome = true ∧
      (calm (engineAt .tick) [] []).resetLine = false ∧ (∃ t, step (calm (engineAt .tick) [] []) = .next t) ∧
      SweepSettled ((engineAt .tick).sweep.get 1) :=
  ⟨by decide, rfl, ⟨_, rfl⟩, .inl (by decide)⟩
theorem witness_OnlyEncnextMovesASweep :
    look (step (calm (engineAt .genEncode) [] [])) (fun t => (t.engine.sweep.get 0).current) = some 307712#32 ∧
      ((engineAt .genEncode).sweep.get 0).current = 307200#32 ∧
    look (step (seqAsks 0x006#128 [])) (fun t => (t.engine.sweep.get 0).current) = some 307712#32 := by decide
theorem witness_SendPassOffersTheFrameOnce :
    (seqAsks 0#128 [.sent]).env.txAnswers = .sent :: [] ∧
    look (exec (.send 0x400#11 8#4 0#64 0#16) (seqAsks 0#128 [.sent])) (·.seqPort.response) = some (some 0#128) ∧
    look (exec (.send 0x400#11 8#4 0#64 0#16) (seqAsks 0#128 [.busy])) (·.seqPort.response) = some (some 3#128) ∧
    look (exec (.send 0x400#11 8#4 0#64 1#16) (seqAsks 0#128 [.busy])) (·.sending) = some true := by decide
theorem witness_SendEndsWithinItsBound :
    let s := seqAsks (encode (.send 0x400#11 8#4 0#64 2#16)) (List.replicate 2 .busy ++ .sent :: [])
    let u := seqAsks (encode (.send 0x400#11 8#4 0#64 2#16)) (List.replicate ((2#16).toNat + 1) .busy ++ [])
    s.resetLine = false ∧ s.sending = false ∧ 2 ≤ (2#16).toNat ∧
      s.seqPort.request = some (encode (.send 0x400#11 8#4 0#64 2#16)) ∧
      s.env.txAnswers = List.replicate 2 .busy ++ .sent :: [] ∧
      u.env.txAnswers = List.replicate ((2#16).toNat + 1) .busy ++ [] := by decide
/-- The hypotheses of the phase statements that ask for nothing but the phase. -/
theorem witness_idle_phase (p : Phase) : Idle (calm (engineAt p) [] []) ∧ (calm (engineAt p) [] []).engine.phase = p :=
  ⟨⟨rfl, rfl⟩, rfl⟩
theorem witness_DrainCheckAsksTheFillLevel :
    look (step (calm (engineAt .drainCheck) [] [])) (fun t => (t.engine.phase, t.trace)) =
      some (.tick, [.fillLevel 0#8]) ∧
    look (step (calm (engineAt .drainCheck) [⟨0x111#11, 8#4, 0#64⟩] [])) (fun t => (t.engine.phase, t.trace)) =
      some (.drainPop, [.fillLevel 1#8]) := by decide
theorem witness_DrainPopDecodesAndEmits :
    let s := calm (engineAt .drainPop) [⟨0x111#11, 8#4, 0#64⟩] []
    Idle s ∧ s.engine.phase = .drainPop ∧ s.env.arrive.rxQueue = ⟨0x111#11, 8#4, 0#64⟩ :: [] :=
  ⟨⟨rfl, rfl⟩, rfl, rfl⟩
theorem witness_EmptyQueueLeavesDrainPopStuck :
    let s := calm (engineAt .drainPop) [] []
    Idle s ∧ s.engine.phase = .drainPop ∧ s.env.arrive.rxQueue = [] := ⟨⟨rfl, rfl⟩, rfl, rfl⟩
theorem witness_GenSendMakesOneAttempt :
    look (step (calm (engineAt .genSend) [] [.sent])) (·.engine.phase) = some .genNext ∧
    Idle (calm (engineAt .genSend) [] [.busy]) ∧ (calm (engineAt .genSend) [] [.busy]).env.txAnswers = [.busy] :=
  ⟨by decide, ⟨rfl, rfl⟩, rfl⟩
theorem witness_TickStartsAGeneratePhaseEveryTenthCycle :
    look (step (calm { engineAt .tick with tick := 9 } [] [])) (fun t => (t.engine.phase, t.engine.tick)) =
      some (.genEncode, 0) ∧
    look (step (calm { engineAt .tick with tick := 8 } [] [])) (fun t => (t.engine.phase, t.engine.tick)) =
      some (.sleep, 9) := by decide
theorem witness_GenEncodeLoadsTheFrame :
    (encodeSignal Config.table 0 (engineAt .genEncode)).isSome = true ∧
      encodeSignal illTable 0 (engineAt .genEncode) = none := by decide
theorem witness_GenNextWalksTheSignalsInOrder :
    look (step (calm { engineAt .genNext with sigIdx := 2 } [] [])) (fun t => (t.engine.phase, t.engine.sigIdx)) =
      some (.sleep, 2) ∧
    look (step (calm { engineAt .genNext with sigIdx := 1 } [] [])) (fun t => (t.engine.phase, t.engine.sigIdx)) =
      some (.genEncode, 2) := by decide
theorem witness_GeneratePhaseEndsAndAdvancesEachSweepOnce :
    Idle (calm (engineAt .genEncode) [] []) ∧ (engineAt .genEncode).phase = .genEncode ∧
      (engineAt .genEncode).sigIdx.val = 0 := ⟨⟨rfl, rfl⟩, rfl, rfl⟩
theorem witness_TraceGrowsOnlyByThePhasesEvents : ∃ t, step (calm (engineAt .sleep) [] []) = .next t := ⟨_, rfl⟩
theorem witness_ContextDecidesWhatIsPermitted :
    (Instr.encnext 0#2).wf = true ∧ SeqOnly (.encnext 0#2) ∧ (Instr.lookup 0#11).wf = true ∧ ¬ SeqOnly (.lookup 0#11) :=
  ⟨rfl, trivial, rfl, id⟩
theorem witness_StatusCodesAboveFiveAreNeverProduced :
    ∃ t, exec (.lookup 0#11) (seqAsks 3#128 []) = .next t ∧ Responded (seqAsks 3#128 []) t 2#128 :=
  ⟨_, rfl, rfl, rfl, rfl, rfl⟩
theorem witness_DirectAnswersDependOnTheWordAlone :
    decode 3#128 = .ok (.lookup 0#11) ∧ ¬ SeqOnly (.lookup 0#11) ∧ (seqAsks 3#128 []).resetLine = false ∧
      (seqAsks 3#128 []).seqPort.request = some 3#128 ∧
      ({ seqAsks 3#128 [] with directRequests := [3#128, 6#128, 0#128] } : State).directResponses =
        [2#128, 5#128, 4#128] :=
  ⟨by decide, id, rfl, rfl, by decide⟩
theorem witness_ResetEventTouchesOnlyTheEngine :
    ({ calm (engineAt .genSend) [] [] with resetLine := true } : State).resetLine = true := rfl
theorem witness_soundState_satisfies_the_invariant : MachineInv soundState := by
  refine ⟨⟨?_, fun i => ⟨rfl, rfl, rfl⟩, fun h => ?_⟩, fun h => ?_, rfl, rfl⟩
  · simp [soundState, calm, Engine.reset]
  · simp [soundState, calm, Engine.reset] at h
  · simp [soundState, calm, Engine.reset] at h
/-- With witness_soundState_satisfies_the_invariant: the hypotheses of EveryStepKeepsTheInvariant and
MachineNeverStopsUnderTheInvariant. -/
theorem witness_EveryStepKeepsTheInvariant : ∃ t, step soundState = .next t := ⟨_, rfl⟩

end Sys2Proof.Tests
end

/-! Direct requests are outside the machine (00_scope.md R13; 20_memory.md R67): replacing the list of those in
progress commutes with every operation, with every phase and so with the step; and what a direct request is answered
(60_exceptions.md R275). -/

namespace Sys2Proof.Machine.Laws

/-- The machine with these direct requests in progress instead: on states what `askingDirect` is on outcomes. -/
def withDirect (ws : List Word128) (s : State) : State := { s with directRequests := ws }

/-! The three kinds of step, each under its own condition (log 3). -/

theorem step_of_reset {s : State} (hreset : s.resetLine = true) : step s = .next s.applyReset := by
  simp [step, hreset]

theorem step_of_request {s : State} {w : Word128} (hreset : s.resetLine = false)
    (hreq : s.seqPort.request = some w) : step s = serve w s := by
  simp [step, hreset, hreq]

theorem step_of_idle {s : State} (h : Idle s) : step s = sequencerStep Config.params s := by
  obtain ⟨hreset, hreq⟩ := h
  simp [step, hreset, hreq]

/-! The two ends of `TICK` and of `GEN_NEXT` (46_sequencer.md R232, R235). -/

theorem tickStep_of_lt {s : State} (h : s.engine.tick.val + 1 < Config.genPeriod) :
    tickStep s = { s with engine := { s.engine with tick := ⟨s.engine.tick.val + 1, h⟩, phase := .sleep } } :=
  dif_pos h

theorem tickStep_of_not_lt {s : State} (h : ¬ s.engine.tick.val + 1 < Config.genPeriod) :
    tickStep s = { s with engine := { s.engine with tick := 0, sigIdx := 0, phase := .genEncode } } :=
  dif_neg h

theorem genNext_of_lt {s : State} (h : s.engine.sigIdx.val + 1 < Config.numSignals) :
    genNext s =
      { s with engine := { s.engine with sigIdx := ⟨s.engine.sigIdx.val + 1, h⟩, phase := .genEncode } } :=
  dif_pos h

theorem genNext_of_not_lt {s : State} (h : ¬ s.engine.sigIdx.val + 1 < Config.numSignals) :
    genNext s = s.setPhase .sleep :=
  dif_neg h

section WithDirect

variable (ws : List Word128) (s : State)

@[simp] theorem withDirect_engine : (withDirect ws s).engine = s.engine := rfl
@[simp] theorem withDirect_seqPort : (withDirect ws s).seqPort = s.seqPort := rfl
@[simp] theorem withDirect_directRequests : (withDirect ws s).directRequests = ws := rfl
@[simp] theorem withDirect_sending : (withDirect ws s).sending = s.sending := rfl
@[simp] theorem withDirect_resetLine : (withDirect ws s).resetLine = s.resetLine := rfl
@[simp] theorem withDirect_env : (withDirect ws s).env = s.env := rfl
@[simp] theorem withDirect_trace : (withDirect ws s).trace = s.trace := rfl

@[simp] theorem askingDirect_next : askingDirect ws (.next s) = .next (withDirect ws s) := rfl

/-! The operations of the table. -/

theorem encnextSignal_withDirect (t : Table) (i : Fin Config.numSignals) :
    encnextSignal t i (withDirect ws s) = withDirect ws (encnextSignal t i s) := by
  simp only [encnextSignal, withDirect_engine]
  cases encodeSignal t i s.engine <;> rfl

theorem sendStep_withDirect (f : Frame) (maxRetry : RetryCount) :
    sendStep f maxRetry (withDirect ws s) = withDirect ws (sendStep f maxRetry s) := by
  have hcount : (withDirect ws s).sendCount = s.sendCount := rfl
  simp only [sendStep, hcount, trySend_answer, withDirect_env]
  cases sendPass s.env.txAnswer.1 s.sendCount maxRetry <;> rfl

theorem exec_withDirect (i : Instr) : exec i (withDirect ws s) = askingDirect ws (exec i s) := by
  cases hq : pureResponse i with
  | some q => simp only [exec_of_pureResponse hq]; rfl
  | none =>
    cases i with
    | encnext sigIdx =>
      show execEncnext sigIdx (withDirect ws s) = askingDirect ws (execEncnext sigIdx s)
      unfold execEncnext
      cases signalOf sigIdx with
      | none => rfl
      | some i => simp only [encnextSignal_withDirect, askingDirect_next]
    | send frameId length payload maxRetry =>
      exact congrArg Host.Outcome.next (sendStep_withDirect ws s ⟨frameId, length, payload⟩ maxRetry)
    | _ => cases hq

theorem serve_withDirect (w : Word128) : serve w (withDirect ws s) = askingDirect ws (serve w s) := by
  unfold serve
  cases decode w with
  | ok i => exact exec_withDirect ws s i
  | error e => rfl

/-! The phases of the poll loop. -/

theorem tickStep_withDirect : tickStep (withDirect ws s) = withDirect ws (tickStep s) := by
  by_cases h : s.engine.tick.val + 1 < Config.genPeriod
  · rw [tickStep_of_lt h]
    exact tickStep_of_lt (s := withDirect ws s) h
  · rw [tickStep_of_not_lt h]
    exact tickStep_of_not_lt (s := withDirect ws s) h

theorem genEncode_withDirect (p : Params) : genEncode p (withDirect ws s) = withDirect ws (genEncode p s) := by
  simp only [genEncode, withDirect_engine]
  cases encodeSignal p.table s.engine.sigIdx s.engine <;> rfl

theorem genSend_withDirect (p : Params) : genSend p (withDirect ws s) = withDirect ws (genSend p s) := by
  simp only [genSend, trySend_answer, withDirect_engine, withDirect_env]
  cases sendPass s.env.txAnswer.1 s.engine.retry p.maxRetry <;> rfl

theorem genNext_withDirect : genNext (withDirect ws s) = withDirect ws (genNext s) := by
  by_cases h : s.engine.sigIdx.val + 1 < Config.numSignals
  · rw [genNext_of_lt h]
    exact genNext_of_lt (s := withDirect ws s) h
  · rw [genNext_of_not_lt h]
    exact genNext_of_not_lt (s := withDirect ws s) h

theorem phaseStep_withDirect (p : Params) :
    phaseStep p (withDirect ws s) = askingDirect ws (phaseStep p s) := by
  simp only [phaseStep, withDirect_engine, withDirect_env]
  cases s.engine.phase with
  | drainCheck => rfl
  | drainPop => cases s.env.rxQueue <;> rfl
  | tick => exact congrArg _ (tickStep_withDirect ws s)
  | genEncode => exact congrArg _ (genEncode_withDirect ws s p)
  | genSend => exact congrArg _ (genSend_withDirect ws s p)
  | genNext => exact congrArg _ (genNext_withDirect ws s)
  | sleep => rfl

theorem sequencerStep_withDirect (p : Params) :
    sequencerStep p (withDirect ws s) = askingDirect ws (sequencerStep p s) :=
  phaseStep_withDirect ws s.arrive.clearResponse p

/-- The step does not see the direct requests in progress and leaves them (00_scope.md R13; 20_memory.md R67). -/
theorem step_withDirect : step (withDirect ws s) = askingDirect ws (step s) := by
  obtain ⟨hreset, hstep⟩ | ⟨hreset, w, hreq, hstep⟩ | ⟨hreset, hreq, hstep⟩ := step_cases s
  · rw [hstep]
    exact step_of_reset hreset
  · rw [hstep, ← serve_withDirect]
    exact step_of_request hreset hreq
  · rw [hstep, ← sequencerStep_withDirect]
    exact step_of_idle ⟨hreset, hreq⟩

end WithDirect

/-! Answers to direct requests. -/

/-- The operations without a pure response are those of context `SEQ` only (60_exceptions.md R276). -/
theorem pureResponse_eq_none_iff (i : Instr) : pureResponse i = none ↔ SeqOnly i := by
  cases i <;> simp [pureResponse, SeqOnly]

/-- A permitted operation has a pure response, and that is what a direct request of it is answered. -/
theorem pureResponse_of_not_seqOnly {w : Word128} {i : Instr} (hd : decode w = .ok i) (hi : ¬ SeqOnly i) :
    pureResponse i = some (directResponse w) := by
  obtain ⟨e, he, -⟩ | ⟨j, q, hj, hq, hr⟩ | ⟨j, hj, hq, -⟩ := directResponse_cases w
  · simp [hd] at he
  · obtain rfl : i = j := by simpa [hd] using hj
    rw [hr, hq]
  · obtain rfl : i = j := by simpa [hd] using hj
    exact absurd ((pureResponse_eq_none_iff i).mp hq) hi

theorem directResponses_getElem? (s : State) (k : Nat) :
    s.directResponses[k]? = (s.directRequests[k]?).map directResponse :=
  List.getElem?_map

theorem serve_of_decode {w : Word128} {i : Instr} (hd : decode w = .ok i) (s : State) : serve w s = exec i s := by
  simp [serve, hd]

/-- On the SEQ port a permitted operation is answered with its direct response (60_exceptions.md R275). -/
theorem step_answers_directResponse {s : State} {w : Word128} {i : Instr} (hd : decode w = .ok i)
    (hi : ¬ SeqOnly i) (hreset : s.resetLine = false) (hreq : s.seqPort.request = some w) :
    step s = .next (s.answer (directResponse w)) :=
  calc step s = serve w s := step_of_request hreset hreq
    _ = exec i s := serve_of_decode hd s
    _ = .next (s.answer (directResponse w)) := exec_of_pureResponse (pureResponse_of_not_seqOnly hd hi) s

/-- Settles O43: the step commutes with replacing the direct requests, and a permitted operation is the answer of its
direct response in either context. -/
theorem directAnswersDependOnTheWordAlone : Obligations.DirectAnswersDependOnTheWordAlone := by
  unfold Obligations.DirectAnswersDependOnTheWordAlone
  refine ⟨fun s ws => step_withDirect ws s, directResponses_getElem?, fun w i s hd hi hreset hreq => ?_⟩
  exact ⟨s.answer (directResponse w), step_answers_directResponse hd hi hreset hreq,
    responded_answer s _, sameInside_answer s _⟩

end Sys2Proof.Machine.Laws

/-! The engine under a step: what its sweeps, its frame and its retry count may become (10_state.md R26, R29, R35), and
the invariant of the machine. -/

namespace Sys2Proof.Machine.Laws

/-! The advance of a sweep (44_frame_encoder.md R189, R193). -/

theorem sameLimits_refl (w : Sweep) : SameLimits w w := ⟨rfl, rfl, rfl⟩

theorem sameLimits_trans {u v w : Sweep} (huv : SameLimits u v) (hvw : SameLimits v w) : SameLimits u w := by
  obtain ⟨hstep, hmin, hmax⟩ := huv
  obtain ⟨hstep', hmin', hmax'⟩ := hvw
  exact ⟨hstep'.trans hstep, hmin'.trans hmin, hmax'.trans hmax⟩

theorem sameLimits_advance (w : Sweep) : SameLimits w w.advance := by
  obtain ⟨-, h⟩ | ⟨-, h⟩ := advance_cases w <;> rw [h] <;> exact ⟨rfl, rfl, rfl⟩

/-- A sum that is not above `max` stays below it after the cut to 32 bits; any other advance goes to `min`. -/
theorem sweepSettled_advance (w : Sweep) : SweepSettled w.advance := by
  obtain ⟨-, h⟩ | ⟨hsum, h⟩ := advance_cases w
  · rw [h]
    exact .inr rfl
  · rw [h]
    refine .inl ?_
    calc (w.current + w.step).toNat ≤ w.current.toNat + w.step.toNat := by
          rw [BitVec.toNat_add]
          exact Nat.mod_le _ _
      _ ≤ w.max.toNat := hsum

/-- Advancing the sweep of one signal, seen at any signal. -/
theorem get_set_advance (w : Sweeps) (i j : Fin Config.numSignals) :
    (w.set i (w.get i).advance).get j = w.get j ∨
    (j = i ∧ (w.set i (w.get i).advance).get j = (w.get j).advance) := by
  by_cases h : j = i
  · subst h
    exact .inr ⟨rfl, sweeps_get_set w j _⟩
  · exact .inl (sweeps_get_set_of_ne w i j _ h)

/-- A successful encode gives an 8-byte frame of the signal's identifier and advances that one sweep
(44_frame_encoder.md R186, R193). -/
theorem encodeSignal_eq_some {t : Table} {i : Fin Config.numSignals} {e e' : Engine} {f : TxFrame}
    (h : encodeSignal t i e = some (f, e')) :
    f.id = (t.entry i).frameId ∧ f.length = .eight ∧
      e' = { e with sweep := e.sweep.set i (e.sweep.get i).advance } := by
  obtain ⟨g, w, hnext, henc⟩ | ⟨-, henc⟩ := encodeSignal_cases t i e
  · obtain ⟨-, hsome⟩ | ⟨-, hnone⟩ := encodeNext_cases (t.entry i) (e.sweep.get i)
    · obtain ⟨rfl, rfl⟩ : _ = g ∧ _ = w := by simpa [hsome] using hnext
      obtain ⟨rfl, rfl⟩ : _ = f ∧ _ = e' := by simpa [henc] using h
      exact ⟨rfl, rfl, rfl⟩
    · simp [hnone] at hnext
  · simp [henc] at h

/-! What an operation requested on the SEQ port does to the sweeps. -/

theorem signalOf_eq_some {sig : BitVec 2} {i : Fin Config.numSignals} (h : signalOf sig = some i) :
    sig.toNat = i.val := by
  unfold signalOf at h
  split at h
  · next h0 => cases h; simp [h0]
  · split at h
    · next h1 => cases h; simp [h1]
    · split at h
      · next h2 => cases h; simp [h2]
      · cases h

theorem sendStep_sweep (f : Frame) (maxRetry : RetryCount) (s : State) :
    (sendStep f maxRetry s).engine.sweep = s.engine.sweep := by
  unfold sendStep
  cases sendPass (s.trySend f).1 s.sendCount maxRetry <;> rfl

theorem encnextSignal_sweep (t : Table) (i : Fin Config.numSignals) (s : State) :
    (encnextSignal t i s).engine.sweep = s.engine.sweep ∨
    (encnextSignal t i s).engine.sweep = s.engine.sweep.set i (s.engine.sweep.get i).advance := by
  unfold encnextSignal
  cases h : encodeSignal t i s.engine with
  | none => exact .inl rfl
  | some r =>
    obtain ⟨-, -, he⟩ := encodeSignal_eq_some h
    exact .inr (congrArg Engine.sweep he)

/-- Of the operations only an `ENCNEXT` moves a sweep (10_state.md R26). -/
theorem exec_sweep {i : Instr} {s t : State} (h : exec i s = .next t) :
    t.engine.sweep = s.engine.sweep ∨
    ∃ sig k, i = .encnext sig ∧ sig.toNat = k.val ∧
      t.engine.sweep = s.engine.sweep.set k (s.engine.sweep.get k).advance := by
  cases hq : pureResponse i with
  | some q =>
    rw [exec_of_pureResponse hq] at h
    cases h
    exact .inl rfl
  | none =>
    cases i with
    | encnext sig =>
      change execEncnext sig s = .next t at h
      unfold execEncnext at h
      cases hk : signalOf sig with
      | none =>
        rw [hk] at h
        cases h
        exact .inl rfl
      | some k =>
        rw [hk] at h
        cases h
        obtain hsame | hadv := encnextSignal_sweep Config.table k s
        · exact .inl hsame
        · exact .inr ⟨sig, k, rfl, signalOf_eq_some hk, hadv⟩
    | send frameId length payload maxRetry =>
      cases h
      exact .inl (sendStep_sweep _ _ _)
    | _ => cases hq

/-! What a phase does to the engine. A phase loads a new frame, counts a retry of the frame it has, or moves on. -/

/-- The phase leaves frame, retry count and sweeps and does not stay at or enter `GEN_SEND`; it enters `DRAIN_POP` only
with a frame in the queue. -/
structure MovesOn (s t : State) : Prop where
  retry     : t.engine.retry = s.engine.retry
  sweep     : t.engine.sweep = s.engine.sweep
  notSend   : t.engine.phase ≠ .genSend
  popQueued : t.engine.phase = .drainPop → t.env.rxQueue ≠ []

/-- `GEN_ENCODE` with status `OK`: the frame of the signal at hand is loaded and that signal's sweep advanced
(46_sequencer.md R233). -/
structure LoadsFrame (p : Params) (s t : State) : Prop where
  phase  : s.engine.phase = .genEncode
  next   : t.engine.phase = .genSend
  sigIdx : t.engine.sigIdx = s.engine.sigIdx
  retry  : t.engine.retry = 0#16
  length : t.engine.txFrame.length = .eight
  id     : t.engine.txFrame.id = (p.table.entry s.engine.sigIdx).frameId
  sweep  : t.engine.sweep = s.engine.sweep.set s.engine.sigIdx (s.engine.sweep.get s.engine.sigIdx).advance

/-- `GEN_SEND` that meets `Busy` below its bound: the engine with one retry more (46_sequencer.md R234). -/
structure CountsRetry (p : Params) (s t : State) : Prop where
  phase  : s.engine.phase = .genSend
  below  : s.engine.retry ≠ p.maxRetry
  engine : t.engine = { s.engine with retry := s.engine.retry + 1#16 }

/-- A phase that changes neither `retry` nor a sweep and leads to one of the phases that ask for nothing. -/
theorem MovesOn.of_phase {s t : State} (hretry : t.engine.retry = s.engine.retry)
    (hsweep : t.engine.sweep = s.engine.sweep)
    (hphase : t.engine.phase ≠ .genSend ∧ t.engine.phase ≠ .drainPop) : MovesOn s t where
  retry := hretry
  sweep := hsweep
  notSend := hphase.1
  popQueued hpop := absurd hpop hphase.2

/-- An answer of `env.fillLevel` above zero means a frame in the queue (46_sequencer.md R241). -/
theorem movesOn_drainCheck (s : State) : MovesOn s (drainCheck s) := by
  obtain ⟨hqueue, -, -, -, hne⟩ := env_fillLevel_spec s.env
  by_cases hn : s.env.fillLevel.1 = 0#8
  · refine .of_phase rfl rfl ?_
    simp [drainCheck, hn]
  · have hframe : s.env.fillLevel.2.rxQueue ≠ [] := hqueue ▸ hne hn
    exact ⟨rfl, rfl, by simp [drainCheck, hn], fun _ => hframe⟩

theorem movesOn_setPhase {s t : State} {p : Phase} (h : t.engine = s.engine)
    (hp : p ≠ .genSend ∧ p ≠ .drainPop) : MovesOn s (t.setPhase p) := by
  have hretry : t.engine.retry = s.engine.retry := by rw [h]
  have hsweep : t.engine.sweep = s.engine.sweep := by rw [h]
  exact .of_phase hretry hsweep hp

theorem movesOn_drainPop (p : Params) (f : Frame) (rest : List Frame) (s : State) :
    MovesOn s (drainPop p f rest s) :=
  movesOn_setPhase rfl (by decide)

theorem movesOn_sleepStep (s : State) : MovesOn s (sleepStep s) := movesOn_setPhase rfl (by decide)

theorem movesOn_tickStep (s : State) : MovesOn s (tickStep s) := by
  by_cases h : s.engine.tick.val + 1 < Config.genPeriod
  · rw [tickStep_of_lt h]
    exact .of_phase rfl rfl (by simp)
  · rw [tickStep_of_not_lt h]
    exact .of_phase rfl rfl (by simp)

theorem movesOn_genNext (s : State) : MovesOn s (genNext s) := by
  by_cases h : s.engine.sigIdx.val + 1 < Config.numSignals
  · rw [genNext_of_lt h]
    exact .of_phase rfl rfl (by simp)
  · rw [genNext_of_not_lt h]
    exact movesOn_setPhase rfl (by decide)

theorem genEncode_cases (p : Params) {s : State} (hphase : s.engine.phase = .genEncode) :
    LoadsFrame p s (genEncode p s) ∨ MovesOn s (genEncode p s) := by
  unfold genEncode
  cases h : encodeSignal p.table s.engine.sigIdx s.engine with
  | none => exact .inr (movesOn_setPhase rfl (by decide))
  | some r =>
    obtain ⟨hid, hlength, he⟩ := encodeSignal_eq_some h
    have hsig : r.2.sigIdx = s.engine.sigIdx := by rw [he]
    have hsweep : r.2.sweep = s.engine.sweep.set s.engine.sigIdx (s.engine.sweep.get s.engine.sigIdx).advance := by
      rw [he]
    exact .inl ⟨hphase, rfl, hsig, rfl, hlength, hid, hsweep⟩

theorem genSend_cases (p : Params) {s : State} (hphase : s.engine.phase = .genSend) :
    CountsRetry p s (genSend p s) ∨ MovesOn s (genSend p s) := by
  unfold genSend
  obtain ⟨-, h⟩ | ⟨-, -, h⟩ | ⟨-, hbelow, h⟩ :=
    sendPass_cases (s.trySend s.engine.txFrame.frame).1 s.engine.retry p.maxRetry
  · rw [h]
    exact .inr (movesOn_setPhase rfl (by decide))
  · rw [h]
    exact .inr (movesOn_setPhase rfl (by decide))
  · rw [h]
    exact .inl ⟨hphase, hbelow, rfl⟩

/-- What a phase can do to the engine (46_sequencer.md R230 to R236). -/
theorem phaseStep_engine_cases {p : Params} {s t : State} (h : phaseStep p s = .next t) :
    LoadsFrame p s t ∨ CountsRetry p s t ∨ MovesOn s t := by
  obtain ⟨-, ht⟩ | ⟨-, f, rest, -, ht⟩ | ⟨-, -, ht⟩ | ⟨-, ht⟩ | ⟨hphase, ht⟩ | ⟨hphase, ht⟩ | ⟨-, ht⟩ | ⟨-, ht⟩ :=
    phaseStep_cases p s <;> rw [ht] at h <;> cases h
  · exact .inr (.inr (movesOn_drainCheck s))
  · exact .inr (.inr (movesOn_drainPop p f rest s))
  · exact .inr (.inr (movesOn_tickStep s))
  · exact (genEncode_cases p hphase).imp_right .inr
  · exact .inr (genSend_cases p hphase)
  · exact .inr (.inr (movesOn_genNext s))
  · exact .inr (.inr (movesOn_sleepStep s))

/-- A step of the sequencer, in the same terms: the environment's own step touches no field of the engine. -/
theorem sequencerStep_engine_cases {p : Params} {s t : State} (h : sequencerStep p s = .next t) :
    LoadsFrame p s t ∨ CountsRetry p s t ∨ MovesOn s t := by
  obtain ⟨hphase, hnext, hsig, hretry, hlength, hid, hsweep⟩ | ⟨hphase, hbelow, he⟩ | ⟨hretry, hsweep, hsend, hpop⟩ :=
    phaseStep_engine_cases h
  · exact .inl ⟨hphase, hnext, hsig, hretry, hlength, hid, hsweep⟩
  · exact .inr (.inl ⟨hphase, hbelow, he⟩)
  · exact .inr (.inr ⟨hretry, hsweep, hsend, hpop⟩)

/-! No phase touches a port, a SEND requested there, the direct requests or the reset line. -/

theorem tickStep_samePorts (s : State) : SamePorts s (tickStep s.clearResponse) := by
  unfold tickStep
  split <;> exact ⟨rfl, rfl, rfl, rfl⟩

theorem genEncode_samePorts (p : Params) (s : State) : SamePorts s (genEncode p s.clearResponse) := by
  unfold genEncode
  split <;> exact ⟨rfl, rfl, rfl, rfl⟩

theorem genSend_samePorts (p : Params) (s : State) : SamePorts s (genSend p s.clearResponse) := by
  unfold genSend
  split <;> exact ⟨rfl, rfl, rfl, rfl⟩

theorem genNext_samePorts (s : State) : SamePorts s (genNext s.clearResponse) := by
  unfold genNext
  split <;> exact ⟨rfl, rfl, rfl, rfl⟩

theorem phaseStep_samePorts {p : Params} {s t : State} (h : phaseStep p s.clearResponse = .next t) :
    SamePorts s t := by
  obtain ⟨-, ht⟩ | ⟨-, f, rest, -, ht⟩ | ⟨-, -, ht⟩ | ⟨-, ht⟩ | ⟨-, ht⟩ | ⟨-, ht⟩ | ⟨-, ht⟩ | ⟨-, ht⟩ :=
    phaseStep_cases p s.clearResponse <;> rw [ht] at h <;> cases h
  · exact ⟨rfl, rfl, rfl, rfl⟩
  · exact ⟨rfl, rfl, rfl, rfl⟩
  · exact tickStep_samePorts s
  · exact genEncode_samePorts p s
  · exact genSend_samePorts p s
  · exact genNext_samePorts s
  · exact ⟨rfl, rfl, rfl, rfl⟩

/-- No operation requested on the SEQ port ends in a step of the sequencer (log 19). -/
theorem sequencerStep_samePorts {p : Params} {s t : State} (h : sequencerStep p s = .next t) : SamePorts s t :=
  phaseStep_samePorts (s := s.arrive) h

/-! Which steps move a sweep. -/

/-- The coming step runs `ENCNEXT` of signal `i`: in phase `GEN_ENCODE`, or requested on the SEQ port (log 3). -/
def EncodesSignal (s : State) (i : Fin Config.numSignals) : Prop :=
  (Idle s ∧ s.engine.phase = .genEncode ∧ s.engine.sigIdx = i) ∨
  (∃ w sig, s.seqPort.request = some w ∧ decode w = .ok (.encnext sig) ∧ sig.toNat = i.val)

theorem serve_sweep {w : Word128} {s t : State} (hreq : s.seqPort.request = some w) (h : serve w s = .next t) :
    t.engine.sweep = s.engine.sweep ∨
    ∃ k, EncodesSignal s k ∧ t.engine.sweep = s.engine.sweep.set k (s.engine.sweep.get k).advance := by
  obtain ⟨i, hd, hs⟩ | ⟨e, -, hs⟩ := serve_cases w s
  · obtain hsame | ⟨sig, k, rfl, hk, hadv⟩ := exec_sweep (hs ▸ h)
    · exact .inl hsame
    · exact .inr ⟨k, .inr ⟨w, sig, hreq, hd, hk⟩, hadv⟩
  · rw [hs] at h
    cases h
    exact .inl rfl

theorem sequencerStep_sweep {p : Params} {s t : State} (hidle : Idle s) (h : sequencerStep p s = .next t) :
    t.engine.sweep = s.engine.sweep ∨
    ∃ k, EncodesSignal s k ∧ t.engine.sweep = s.engine.sweep.set k (s.engine.sweep.get k).advance := by
  obtain hload | hcount | hmove := sequencerStep_engine_cases h
  · exact .inr ⟨s.engine.sigIdx, .inl ⟨hidle, hload.phase, rfl⟩, hload.sweep⟩
  · exact .inl (by rw [hcount.engine])
  · exact .inl hmove.sweep

/-- Without a reset event a step leaves the sweep of a signal or, where it runs that signal's `ENCNEXT`, advances it. -/
theorem step_sweep_get {s t : State} (hreset : s.resetLine = false) (h : step s = .next t)
    (i : Fin Config.numSignals) :
    t.engine.sweep.get i = s.engine.sweep.get i ∨
    (EncodesSignal s i ∧ t.engine.sweep.get i = (s.engine.sweep.get i).advance) := by
  have hsweep : t.engine.sweep = s.engine.sweep ∨
      ∃ k, EncodesSignal s k ∧ t.engine.sweep = s.engine.sweep.set k (s.engine.sweep.get k).advance := by
    obtain ⟨hline, -⟩ | ⟨-, w, hreq, hs⟩ | ⟨-, hreq, hs⟩ := step_cases s
    · simp [hreset] at hline
    · exact serve_sweep hreq (hs ▸ h)
    · exact sequencerStep_sweep ⟨hreset, hreq⟩ (hs ▸ h)
  obtain hsame | ⟨k, hk, hadv⟩ := hsweep
  · exact .inl (by rw [hsame])
  · rw [hadv]
    obtain hget | ⟨rfl, hget⟩ := get_set_advance s.engine.sweep k i
    · exact .inl hget
    · exact .inr ⟨hk, hget⟩

/-- Settles O27: an advance settles a sweep, and a step leaves a sweep or advances it. -/
theorem advancedSweepsStaySettled : Obligations.AdvancedSweepsStaySettled := by
  unfold Obligations.AdvancedSweepsStaySettled
  refine ⟨fun tbl i e e' f h => ?_, fun s t i hreset h hsettled => ?_⟩
  · obtain ⟨-, -, rfl⟩ := encodeSignal_eq_some h
    rw [sweeps_get_set]
    exact sweepSettled_advance _
  · obtain hsame | ⟨-, hadv⟩ := step_sweep_get hreset h i
    · rwa [hsame]
    · rw [hadv]
      exact sweepSettled_advance _

/-- Settles O28: a step leaves a sweep, or it runs that signal's ENCNEXT and the advance keeps the limits. -/
theorem onlyEncnextMovesASweep : Obligations.OnlyEncnextMovesASweep := by
  unfold Obligations.OnlyEncnextMovesASweep
  intro s t i hreset h
  obtain hsame | ⟨henc, hadv⟩ := step_sweep_get hreset h i
  · rw [hsame]
    exact ⟨sameLimits_refl _, fun hne => absurd rfl hne⟩
  · rw [hadv]
    exact ⟨sameLimits_advance _, fun _ => henc⟩

/-! The invariant. -/

theorem engineInv_reset : EngineInv Engine.reset :=
  ⟨Nat.zero_le _, fun _ => sameLimits_refl _, fun h => nomatch h⟩

/-- The engine's invariant asks of a phase other than `GEN_SEND` for the retry bound and the limits only. -/
theorem engineInv_of_movesOn {s t : State} (h : EngineInv s.engine) (hmove : MovesOn s t) : EngineInv t.engine := by
  obtain ⟨hretry, hlimits, -⟩ := h
  exact ⟨hmove.retry ▸ hretry, hmove.sweep ▸ hlimits, fun hphase => absurd hphase hmove.notSend⟩

theorem engineInv_of_loadsFrame {s t : State} (h : EngineInv s.engine) (hload : LoadsFrame Config.params s t) :
    EngineInv t.engine := by
  obtain ⟨-, hlimits, -⟩ := h
  refine ⟨?_, fun i => ?_, fun _ => ⟨hload.length, ?_⟩⟩
  · rw [hload.retry]
    exact Nat.zero_le _
  · rw [hload.sweep]
    obtain hget | ⟨-, hget⟩ := get_set_advance s.engine.sweep s.engine.sigIdx i
    · rw [hget]
      exact hlimits i
    · rw [hget]
      exact sameLimits_trans (hlimits i) (sameLimits_advance _)
  · rw [hload.sigIdx]
    exact hload.id

/-- A retry is counted only below the bound, so the count does not pass it. -/
theorem engineInv_of_countsRetry {s t : State} (h : EngineInv s.engine) (hcount : CountsRetry Config.params s t) :
    EngineInv t.engine := by
  obtain ⟨hretry, hlimits, hframe⟩ := h
  have hne : s.engine.retry.toNat ≠ Config.maxRetry.toNat := fun heq => hcount.below (BitVec.eq_of_toNat_eq heq)
  have hbound : (s.engine.retry + 1#16).toNat ≤ Config.maxRetry.toNat := by
    calc (s.engine.retry + 1#16).toNat ≤ s.engine.retry.toNat + 1 := by
          rw [BitVec.toNat_add]
          exact Nat.mod_le _ _
      _ ≤ Config.maxRetry.toNat := by omega
  rw [hcount.engine]
  exact ⟨hbound, hlimits, hframe⟩

/-- What holds right after a reset, in whatever environment. -/
theorem machineInv_of_engine_reset {s : State} (hengine : s.engine = Engine.reset)
    (hreq : s.seqPort.request = none) (hsending : s.sending = false) : MachineInv s := by
  refine ⟨hengine ▸ engineInv_reset, fun hphase => ?_, hreq, hsending⟩
  rw [hengine] at hphase
  cases hphase

theorem sequencerStep_machineInv {s t : State} (hinv : MachineInv s)
    (h : sequencerStep Config.params s = .next t) : MachineInv t := by
  obtain ⟨hengine, -, hreq, hsending⟩ := hinv
  obtain ⟨hport, hsend, -, -⟩ := sequencerStep_samePorts h
  have hreq' : t.seqPort.request = none := by rw [hport, hreq]
  have hsending' : t.sending = false := hsend.trans hsending
  obtain hload | hcount | hmove := sequencerStep_engine_cases h
  · refine ⟨engineInv_of_loadsFrame hengine hload, fun hpop => ?_, hreq', hsending'⟩
    simp [hload.next] at hpop
  · refine ⟨engineInv_of_countsRetry hengine hcount, fun hpop => ?_, hreq', hsending'⟩
    simp [hcount.engine, hcount.phase] at hpop
  · exact ⟨engineInv_of_movesOn hengine hmove, hmove.popQueued, hreq', hsending'⟩

/-- Settles O47: under the invariant a step is a reset or a step of the sequencer, and each keeps it. -/
theorem everyStepKeepsTheInvariant : Obligations.EveryStepKeepsTheInvariant := by
  unfold Obligations.EveryStepKeepsTheInvariant
  intro s t hinv h
  obtain ⟨-, hs⟩ | ⟨-, w, hreq, -⟩ | ⟨-, -, hs⟩ := step_cases s
  · rw [hs] at h
    cases h
    exact machineInv_of_engine_reset rfl rfl rfl
  · obtain ⟨-, -, hnone, -⟩ := hinv
    simp [hnone] at hreq
  · exact sequencerStep_machineInv hinv (hs ▸ h)

/-- Settles O44: each field of the reset engine is the value of the table of 10_state.md R34. -/
theorem resetValuesOfTheEngine : Obligations.ResetValuesOfTheEngine := by
  unfold Obligations.ResetValuesOfTheEngine
  exact ⟨rfl, rfl, rfl, rfl, rfl, rfl, rfl, rfl⟩

/-- Settles O46: the reset engine meets the engine's invariant and nothing waits on the SEQ port. -/
theorem resetSatisfiesTheInvariant : Obligations.ResetSatisfiesTheInvariant := by
  unfold Obligations.ResetSatisfiesTheInvariant
  exact machineInv_of_engine_reset rfl rfl rfl

end Sys2Proof.Machine.Laws

/-! The payload buffer as a number (20_memory.md R52, R53): a number is its bits, so each statement about `div` and `mod`
is one about the bits that `bufRead_getLsbD` and `bufWrite_getLsbD` give. -/

namespace Sys2Proof.Machine.Laws

open Sys2Proof.Laws

/-- Bits `[s, s + n)` of `x`, as the number that R52 writes. -/
theorem testBit_div_mod_two_pow (x s n k : Nat) :
    (x / 2 ^ s % 2 ^ n).testBit k = (decide (k < n) && x.testBit (s + k)) := by
  rw [Nat.testBit_mod_two_pow, Nat.testBit_div_two_pow, Nat.add_comm k s]

/-- The old high part, `v mod 2^n` and the old low part, as one number: inside the field it has the bits of `v`, outside it
those of `x`. -/
theorem testBit_splice (x v s n k : Nat) :
    (x / 2 ^ (s + n) * 2 ^ (s + n) + v % 2 ^ n * 2 ^ s + x % 2 ^ s).testBit k =
      if s ≤ k ∧ k < s + n then v.testBit (k - s) else x.testBit k := by
  have hlow : x % 2 ^ s < 2 ^ s := Nat.mod_lt _ (Nat.two_pow_pos s)
  have hparts : x / 2 ^ (s + n) * 2 ^ (s + n) + v % 2 ^ n * 2 ^ s + x % 2 ^ s =
      2 ^ s * (2 ^ n * (x / 2 ^ (s + n)) + v % 2 ^ n) + x % 2 ^ s := by
    rw [Nat.pow_add]
    ring
  rw [hparts, Nat.testBit_two_pow_mul_add _ hlow]
  by_cases hs : k < s
  · simp [hs, show ¬ s ≤ k by omega, Nat.testBit_mod_two_pow]
  · have hmid : v % 2 ^ n < 2 ^ n := Nat.mod_lt _ (Nat.two_pow_pos n)
    rw [if_neg hs, Nat.testBit_two_pow_mul_add _ hmid]
    by_cases hn : k < s + n
    · simp [hn, show s ≤ k by omega, show k - s < n by omega, Nat.testBit_mod_two_pow]
    · simp [hn, show ¬ k - s < n by omega, Nat.testBit_div_two_pow, show k - s - n + (s + n) = k by omega]

/-- R52: the number a read returns. -/
theorem bufRead_toNat (b : Buffer) (s n : Nat) (hn : n ≤ 32) :
    (bufRead b s n).toNat = b.toNat / 2 ^ s % 2 ^ n := by
  refine Nat.eq_of_testBit_eq fun k => ?_
  rw [testBit_div_mod_two_pow, BitVec.testBit_toNat, BitVec.testBit_toNat, bufRead_getLsbD b s n k hn]

/-- `bufWrite_getLsbD` at every position: above the buffer both sides are zero, as the field ends inside it. -/
theorem bufWrite_testBit (b : Buffer) (s n k : Nat) (v : RawCount) (hn : n ≤ 32) (hsn : s + n ≤ 64) :
    (bufWrite b s n v).toNat.testBit k =
      if s ≤ k ∧ k < s + n then v.toNat.testBit (k - s) else b.toNat.testBit k := by
  simp only [BitVec.testBit_toNat]
  by_cases hk : k < 64
  · exact bufWrite_getLsbD b s n k v hn hk
  · have houtside : ¬ (s ≤ k ∧ k < s + n) := by omega
    rw [if_neg houtside, BitVec.getLsbD_of_ge _ k (by rw [bufBits_eq]; omega),
      BitVec.getLsbD_of_ge _ k (by rw [bufBits_eq]; omega)]

/-- R53: the number a write leaves. -/
theorem bufWrite_toNat (b : Buffer) (s n : Nat) (v : RawCount) (hn : n ≤ 32) (hsn : s + n ≤ 64) :
    (bufWrite b s n v).toNat =
      b.toNat / 2 ^ (s + n) * 2 ^ (s + n) + v.toNat % 2 ^ n * 2 ^ s + b.toNat % 2 ^ s := by
  refine Nat.eq_of_testBit_eq fun k => ?_
  rw [bufWrite_testBit b s n k v hn hsn, testBit_splice]

/-- R53 (a): the field of a written buffer is the value's low bits. -/
theorem bufWrite_field (b : Buffer) (s n : Nat) (v : RawCount) (hn : n ≤ 32) (hsn : s + n ≤ 64) :
    (bufWrite b s n v).toNat / 2 ^ s % 2 ^ n = v.toNat % 2 ^ n := by
  refine Nat.eq_of_testBit_eq fun k => ?_
  rw [testBit_div_mod_two_pow, Nat.testBit_mod_two_pow, bufWrite_testBit b s n _ v hn hsn]
  by_cases hk : k < n <;> simp [hk]

/-- R53 (b): a write leaves every bit outside its field. -/
theorem bufWrite_getLsbD_outside (b : Buffer) (s n k : Nat) (v : RawCount) (hn : n ≤ 32) (hk : k < 64)
    (houtside : ¬ (s ≤ k ∧ k < s + n)) : (bufWrite b s n v).getLsbD k = b.getLsbD k := by
  rw [bufWrite_getLsbD b s n k v hn hk, if_neg houtside]

/-- R53 (c): the number a write leaves depends on `v` through `v mod 2^n` alone. -/
theorem bufWrite_congr_mod (b : Buffer) (s n : Nat) {v v' : RawCount} (hn : n ≤ 32) (hsn : s + n ≤ 64)
    (hmod : v'.toNat % 2 ^ n = v.toNat % 2 ^ n) : bufWrite b s n v' = bufWrite b s n v := by
  apply BitVec.eq_of_toNat_eq
  rw [bufWrite_toNat b s n v' hn hsn, bufWrite_toNat b s n v hn hsn, hmod]

/-- Settles O7: the number is `bufRead_toNat`, and below `n` the mask passes every bit. -/
theorem bufferReadIsTheFieldNumber : Obligations.BufferReadIsTheFieldNumber := by
  unfold Obligations.BufferReadIsTheFieldNumber
  intro b s n _ hn _
  refine ⟨bufRead_toNat b s n hn, fun k hk => ?_⟩
  rw [bufRead_getLsbD b s n k hn, decide_eq_true hk, Bool.true_and]

/-- Settles O8: the exact number of the written buffer, then R53 (a), (b) and (c). -/
theorem bufferWriteReplacesOnlyTheField : Obligations.BufferWriteReplacesOnlyTheField := by
  unfold Obligations.BufferWriteReplacesOnlyTheField
  intro b s n v _ hn hsn
  exact ⟨bufWrite_toNat b s n v hn hsn, bufWrite_field b s n v hn hsn,
    fun k hk houtside => bufWrite_getLsbD_outside b s n k v hn hk houtside,
    fun _ hmod => bufWrite_congr_mod b s n hn hsn hmod⟩

end Sys2Proof.Machine.Laws

/-! Request words (30_encoding.md R82 to R89, R104): which slices of a word its format reserves and which hold operands,
that the decoder and the encoder undo each other, and which words are legal. -/

namespace Sys2Proof.Laws

open Sys2Proof.Machine

/-! What each format's decoder accepts. -/

theorem guardReserved_eq_ok_iff (reservedZero : Bool) (i j : Instr) :
    guardReserved reservedZero i = .ok j ↔ reservedZero = true ∧ i = j := by
  cases reservedZero <;> simp [guardReserved]

theorem decodeWrfld_eq_ok_iff (w : Word128) (i : Instr) :
    decodeWrfld w = .ok i ↔ w.extractLsb' 4 4 = 0#4 ∧ w.extractLsb' 24 8 = 0#8 ∧
      .wrfld (w.extractLsb' 64 64) (w.extractLsb' 8 8) (w.extractLsb' 16 8) (w.extractLsb' 32 32) = i := by
  simp [decodeWrfld, guardReserved_eq_ok_iff, and_assoc]

theorem decodeRdfld_eq_ok_iff (w : Word128) (i : Instr) :
    decodeRdfld w = .ok i ↔ w.extractLsb' 4 4 = 0#4 ∧ w.extractLsb' 24 8 = 0#8 ∧ w.extractLsb' 32 32 = 0#32 ∧
      .rdfld (w.extractLsb' 64 64) (w.extractLsb' 8 8) (w.extractLsb' 16 8) = i := by
  simp [decodeRdfld, guardReserved_eq_ok_iff, and_assoc]

theorem decodeLookup_eq_ok_iff (w : Word128) (i : Instr) :
    decodeLookup w = .ok i ↔ w.extractLsb' 4 4 = 0#4 ∧ w.extractLsb' 19 109 = 0#109 ∧
      .lookup (w.extractLsb' 8 11) = i := by
  simp [decodeLookup, guardReserved_eq_ok_iff, and_assoc]

theorem decodeClassify_eq_ok_iff (w : Word128) (i : Instr) :
    decodeClassify w = .ok i ↔ w.extractLsb' 5 27 = 0#27 ∧ w.extractLsb' 96 32 = 0#32 ∧
      .classify (w.extractLsb' 32 32) (w.extractLsb' 64 32) (.ofCode (w.extractLsb' 4 1)) = i := by
  simp [decodeClassify, guardReserved_eq_ok_iff, and_assoc]

theorem decodeDecode_eq_ok_iff (w : Word128) (i : Instr) :
    decodeDecode w = .ok i ↔ w.extractLsb' 19 45 = 0#45 ∧
      .decode (w.extractLsb' 8 11) (w.extractLsb' 4 4) (w.extractLsb' 64 64) = i := by
  simp [decodeDecode, guardReserved_eq_ok_iff]

theorem decodeEncnext_eq_ok_iff (w : Word128) (i : Instr) :
    decodeEncnext w = .ok i ↔ w.extractLsb' 8 2 ≠ 3#2 ∧ w.extractLsb' 4 4 = 0#4 ∧ w.extractLsb' 10 118 = 0#118 ∧
      .encnext (w.extractLsb' 8 2) = i := by
  by_cases h : w.extractLsb' 8 2 = 3#2 <;> simp [decodeEncnext, guardReserved_eq_ok_iff, h, and_assoc]

theorem decodeSend_eq_ok_iff (w : Word128) (i : Instr) :
    decodeSend w = .ok i ↔ w.extractLsb' 19 13 = 0#13 ∧ w.extractLsb' 48 16 = 0#16 ∧
      .send (w.extractLsb' 8 11) (w.extractLsb' 4 4) (w.extractLsb' 64 64) (w.extractLsb' 32 16) = i := by
  simp [decodeSend, guardReserved_eq_ok_iff, and_assoc]

/-- The opcode map: a word that decodes has one of the seven opcodes and is accepted by that format's decoder (R82). -/
theorem decode_eq_ok_iff (w : Word128) (i : Instr) :
    decode w = .ok i ↔
      (w.extractLsb' 0 4 = 0x1#4 ∧ decodeWrfld w = .ok i) ∨
      (w.extractLsb' 0 4 = 0x2#4 ∧ decodeRdfld w = .ok i) ∨
      (w.extractLsb' 0 4 = 0x3#4 ∧ decodeLookup w = .ok i) ∨
      (w.extractLsb' 0 4 = 0x4#4 ∧ decodeClassify w = .ok i) ∨
      (w.extractLsb' 0 4 = 0x5#4 ∧ decodeDecode w = .ok i) ∨
      (w.extractLsb' 0 4 = 0x6#4 ∧ decodeEncnext w = .ok i) ∨
      (w.extractLsb' 0 4 = 0x7#4 ∧ decodeSend w = .ok i) := by
  unfold decode
  generalize w.extractLsb' 0 4 = opcode
  simp only [← BitVec.toNat_inj]
  split <;> simp_all

/-! Decoding an encoded operation. -/

@[simp] theorem cmp_ofCode_code (c : Cmp) : Cmp.ofCode c.code = c := by cases c <;> rfl

theorem cmp_code_ofCode (b : BitVec 1) : (Cmp.ofCode b).code = b := by
  rcases BitVec.eq_zero_or_eq_one b with h | h <;> rw [h] <;> rfl

/-- The slice that ends a chain of appends: all of the word. -/
theorem extractLsb'_all {l start : Nat} (x : BitVec l) (h : start = 0) : x.extractLsb' start l = x := by
  rw [h, BitVec.extractLsb'_eq_self]

/-- The same of a payload buffer, whose width is written as a product. -/
theorem extractLsb'_buffer {start : Nat} (b : Buffer) (h : start = 0) : b.extractLsb' start 64 = b :=
  extractLsb'_all b h

theorem decodeWrfld_encode (buffer : Buffer) (startBit : StartBit) (bitLength : BitLength) (value : RawCount) :
    decodeWrfld (encode (.wrfld buffer startBit bitLength value)) = .ok (.wrfld buffer startBit bitLength value) := by
  rw [decodeWrfld_eq_ok_iff]
  simp (disch := decide) only [encode, BitVec.extractLsb'_append_eq_of_le, BitVec.extractLsb'_append_eq_of_add_le,
    extractLsb'_all, extractLsb'_buffer, and_self]

theorem decodeRdfld_encode (buffer : Buffer) (startBit : StartBit) (bitLength : BitLength) :
    decodeRdfld (encode (.rdfld buffer startBit bitLength)) = .ok (.rdfld buffer startBit bitLength) := by
  rw [decodeRdfld_eq_ok_iff]
  simp (disch := decide) only [encode, BitVec.extractLsb'_append_eq_of_le, BitVec.extractLsb'_append_eq_of_add_le,
    extractLsb'_all, extractLsb'_buffer, and_self]

theorem decodeLookup_encode (frameId : FrameId) : decodeLookup (encode (.lookup frameId)) = .ok (.lookup frameId) := by
  rw [decodeLookup_eq_ok_iff]
  simp (disch := decide) only [encode, BitVec.extractLsb'_append_eq_of_le, BitVec.extractLsb'_append_eq_of_add_le,
    extractLsb'_all, and_self]

theorem decodeClassify_encode (raw : RawCount) (thr : Quantity) (cmp : Cmp) :
    decodeClassify (encode (.classify raw thr cmp)) = .ok (.classify raw thr cmp) := by
  rw [decodeClassify_eq_ok_iff]
  simp (disch := decide) only [encode, BitVec.extractLsb'_append_eq_of_le, BitVec.extractLsb'_append_eq_of_add_le,
    extractLsb'_all, cmp_ofCode_code, and_self]

theorem decodeDecode_encode (frameId : FrameId) (length : BitVec 4) (payload : Buffer) :
    decodeDecode (encode (.decode frameId length payload)) = .ok (.decode frameId length payload) := by
  rw [decodeDecode_eq_ok_iff]
  simp (disch := decide) only [encode, BitVec.extractLsb'_append_eq_of_le, BitVec.extractLsb'_append_eq_of_add_le,
    extractLsb'_all, extractLsb'_buffer, and_self]

theorem decodeEncnext_encode {sigIdx : BitVec 2} (h : sigIdx ≠ 3#2) :
    decodeEncnext (encode (.encnext sigIdx)) = .ok (.encnext sigIdx) := by
  rw [decodeEncnext_eq_ok_iff]
  simp (disch := decide) only [encode, BitVec.extractLsb'_append_eq_of_le, BitVec.extractLsb'_append_eq_of_add_le,
    extractLsb'_all, and_self, and_true]
  exact h

theorem decodeSend_encode (frameId : FrameId) (length : BitVec 4) (payload : Buffer) (maxRetry : RetryCount) :
    decodeSend (encode (.send frameId length payload maxRetry)) = .ok (.send frameId length payload maxRetry) := by
  rw [decodeSend_eq_ok_iff]
  simp (disch := decide) only [encode, BitVec.extractLsb'_append_eq_of_le, BitVec.extractLsb'_append_eq_of_add_le,
    extractLsb'_all, extractLsb'_buffer, and_self]

/-- Decoding undoes encoding: every slice of an encoded word is the operand, or the zero, that was put there. -/
theorem decode_encode {i : Instr} (hwf : i.wf = true) : decode (encode i) = .ok i := by
  rw [decode_eq_ok_iff]
  cases i with
  | wrfld => exact .inl ⟨EncodedOpcode.wrfld .., decodeWrfld_encode ..⟩
  | rdfld => exact .inr (.inl ⟨EncodedOpcode.rdfld .., decodeRdfld_encode ..⟩)
  | lookup => exact .inr (.inr (.inl ⟨EncodedOpcode.lookup .., decodeLookup_encode ..⟩))
  | classify => exact .inr (.inr (.inr (.inl ⟨EncodedOpcode.classify .., decodeClassify_encode ..⟩)))
  | decode => exact .inr (.inr (.inr (.inr (.inl ⟨EncodedOpcode.decode .., decodeDecode_encode ..⟩))))
  | encnext =>
    have hdecode := decodeEncnext_encode (bne_iff_ne.mp hwf)
    exact .inr (.inr (.inr (.inr (.inr (.inl ⟨EncodedOpcode.encnext .., hdecode⟩)))))
  | send => exact .inr (.inr (.inr (.inr (.inr (.inr ⟨EncodedOpcode.send .., decodeSend_encode ..⟩)))))

/-! Encoding a decoded word: the slices of a word, one after the other, are the word. -/

/-! Encoding a decoded word: the slices of a word, one after the other, are the word. -/

theorem encode_of_decodeWrfld {w : Word128} {i : Instr} (hop : w.extractLsb' 0 4 = 0x1#4)
    (h : decodeWrfld w = .ok i) : i.wf = true ∧ encode i = w := by
  obtain ⟨h4, h24, rfl⟩ := (decodeWrfld_eq_ok_iff w i).mp h
  refine ⟨rfl, ?_⟩
  simp (disch := decide) only [encode, ← hop, ← h4, ← h24, BitVec.extractLsb'_append_extractLsb'_eq_extractLsb']
  exact extractLsb'_all w rfl

theorem encode_of_decodeRdfld {w : Word128} {i : Instr} (hop : w.extractLsb' 0 4 = 0x2#4)
    (h : decodeRdfld w = .ok i) : i.wf = true ∧ encode i = w := by
  obtain ⟨h4, h24, h32, rfl⟩ := (decodeRdfld_eq_ok_iff w i).mp h
  refine ⟨rfl, ?_⟩
  simp (disch := decide) only [encode, ← hop, ← h4, ← h24, ← h32, BitVec.extractLsb'_append_extractLsb'_eq_extractLsb']
  exact extractLsb'_all w rfl

theorem encode_of_decodeLookup {w : Word128} {i : Instr} (hop : w.extractLsb' 0 4 = 0x3#4)
    (h : decodeLookup w = .ok i) : i.wf = true ∧ encode i = w := by
  obtain ⟨h4, h19, rfl⟩ := (decodeLookup_eq_ok_iff w i).mp h
  refine ⟨rfl, ?_⟩
  simp (disch := decide) only [encode, ← hop, ← h4, ← h19, BitVec.extractLsb'_append_extractLsb'_eq_extractLsb']
  exact extractLsb'_all w rfl

theorem encode_of_decodeClassify {w : Word128} {i : Instr} (hop : w.extractLsb' 0 4 = 0x4#4)
    (h : decodeClassify w = .ok i) : i.wf = true ∧ encode i = w := by
  obtain ⟨h5, h96, rfl⟩ := (decodeClassify_eq_ok_iff w i).mp h
  refine ⟨rfl, ?_⟩
  simp (disch := decide) only [encode, cmp_code_ofCode, ← hop, ← h5, ← h96,
    BitVec.extractLsb'_append_extractLsb'_eq_extractLsb']
  exact extractLsb'_all w rfl

theorem encode_of_decodeDecode {w : Word128} {i : Instr} (hop : w.extractLsb' 0 4 = 0x5#4)
    (h : decodeDecode w = .ok i) : i.wf = true ∧ encode i = w := by
  obtain ⟨h19, rfl⟩ := (decodeDecode_eq_ok_iff w i).mp h
  refine ⟨rfl, ?_⟩
  simp (disch := decide) only [encode, ← hop, ← h19, BitVec.extractLsb'_append_extractLsb'_eq_extractLsb']
  exact extractLsb'_all w rfl

theorem encode_of_decodeEncnext {w : Word128} {i : Instr} (hop : w.extractLsb' 0 4 = 0x6#4)
    (h : decodeEncnext w = .ok i) : i.wf = true ∧ encode i = w := by
  obtain ⟨h3, h4, h10, rfl⟩ := (decodeEncnext_eq_ok_iff w i).mp h
  refine ⟨bne_iff_ne.mpr h3, ?_⟩
  simp (disch := decide) only [encode, ← hop, ← h4, ← h10, BitVec.extractLsb'_append_extractLsb'_eq_extractLsb']
  exact extractLsb'_all w rfl

theorem encode_of_decodeSend {w : Word128} {i : Instr} (hop : w.extractLsb' 0 4 = 0x7#4)
    (h : decodeSend w = .ok i) : i.wf = true ∧ encode i = w := by
  obtain ⟨h19, h48, rfl⟩ := (decodeSend_eq_ok_iff w i).mp h
  refine ⟨rfl, ?_⟩
  simp (disch := decide) only [encode, ← hop, ← h19, ← h48, BitVec.extractLsb'_append_extractLsb'_eq_extractLsb']
  exact extractLsb'_all w rfl

/-- Encoding undoes decoding, and only well-formed operations are decoded. -/
theorem encode_of_decode {w : Word128} {i : Instr} (h : decode w = .ok i) : i.wf = true ∧ encode i = w := by
  obtain ⟨hop, h⟩ | ⟨hop, h⟩ | ⟨hop, h⟩ | ⟨hop, h⟩ | ⟨hop, h⟩ | ⟨hop, h⟩ | ⟨hop, h⟩ := (decode_eq_ok_iff w i).mp h
  · exact encode_of_decodeWrfld hop h
  · exact encode_of_decodeRdfld hop h
  · exact encode_of_decodeLookup hop h
  · exact encode_of_decodeClassify hop h
  · exact encode_of_decodeDecode hop h
  · exact encode_of_decodeEncnext hop h
  · exact encode_of_decodeSend hop h

/-! The legality masks: ones on the opcode and on the reserved slices, zeros on the operands. -/

theorem encode_wrfld_and_mask (buffer : Buffer) (startBit : StartBit) (bitLength : BitLength) (value : RawCount) :
    encode (.wrfld buffer startBit bitLength value) &&& 0x000000000000000000000000FF0000FF#128 = 1#128 := by
  change (buffer ++ value ++ 0#8 ++ bitLength ++ startBit ++ 0#4 ++ 0x1#4) &&&
    (0#Config.bufBits ++ 0#Config.valW ++ BitVec.allOnes 8 ++ 0#Config.lenW ++ 0#Config.startW ++
      BitVec.allOnes 4 ++ BitVec.allOnes 4) = _
  simp only [BitVec.and_append, BitVec.and_zero, BitVec.and_allOnes]
  rfl

theorem encode_rdfld_and_mask (buffer : Buffer) (startBit : StartBit) (bitLength : BitLength) :
    encode (.rdfld buffer startBit bitLength) &&& 0x0000000000000000FFFFFFFFFF0000FF#128 = 2#128 := by
  change (buffer ++ 0#32 ++ 0#8 ++ bitLength ++ startBit ++ 0#4 ++ 0x2#4) &&&
    (0#Config.bufBits ++ BitVec.allOnes 32 ++ BitVec.allOnes 8 ++ 0#Config.lenW ++ 0#Config.startW ++
      BitVec.allOnes 4 ++ BitVec.allOnes 4) = _
  simp only [BitVec.and_append, BitVec.and_zero, BitVec.and_allOnes]
  rfl

theorem encode_lookup_and_mask (frameId : FrameId) :
    encode (.lookup frameId) &&& 0xFFFFFFFFFFFFFFFFFFFFFFFFFFF800FF#128 = 3#128 := by
  change (0#109 ++ frameId ++ 0#4 ++ 0x3#4) &&&
    (BitVec.allOnes 109 ++ 0#Config.idBits ++ BitVec.allOnes 4 ++ BitVec.allOnes 4) = _
  simp only [BitVec.and_append, BitVec.and_zero, BitVec.and_allOnes]
  rfl

theorem encode_classify_and_mask (raw : RawCount) (thr : Quantity) (cmp : Cmp) :
    encode (.classify raw thr cmp) &&& 0xFFFFFFFF0000000000000000FFFFFFEF#128 = 4#128 := by
  change (0#32 ++ thr ++ raw ++ 0#27 ++ cmp.code ++ 0x4#4) &&&
    (BitVec.allOnes 32 ++ 0#Config.qW ++ 0#Config.valW ++ BitVec.allOnes 27 ++ 0#1 ++ BitVec.allOnes 4) = _
  simp only [BitVec.and_append, BitVec.and_zero, BitVec.and_allOnes]
  rfl

theorem encode_decode_and_mask (frameId : FrameId) (length : BitVec 4) (payload : Buffer) :
    encode (.decode frameId length payload) &&& 0x0000000000000000FFFFFFFFFFF8000F#128 = 5#128 := by
  change (payload ++ 0#45 ++ frameId ++ length ++ 0x5#4) &&&
    (0#Config.bufBits ++ BitVec.allOnes 45 ++ 0#Config.idBits ++ 0#4 ++ BitVec.allOnes 4) = _
  simp only [BitVec.and_append, BitVec.and_zero, BitVec.and_allOnes]
  rfl

theorem encode_encnext_and_mask (sigIdx : BitVec 2) :
    encode (.encnext sigIdx) &&& 0xFFFFFFFFFFFFFFFFFFFFFFFFFFFFFCFF#128 = 6#128 := by
  change (0#118 ++ sigIdx ++ 0#4 ++ 0x6#4) &&&
    (BitVec.allOnes 118 ++ 0#2 ++ BitVec.allOnes 4 ++ BitVec.allOnes 4) = _
  simp only [BitVec.and_append, BitVec.and_zero, BitVec.and_allOnes]
  rfl

theorem encode_send_and_mask (frameId : FrameId) (length : BitVec 4) (payload : Buffer) (maxRetry : RetryCount) :
    encode (.send frameId length payload maxRetry) &&& 0x0000000000000000FFFF0000FFF8000F#128 = 7#128 := by
  change (payload ++ 0#16 ++ maxRetry ++ 0#13 ++ frameId ++ length ++ 0x7#4) &&&
    (0#Config.bufBits ++ BitVec.allOnes 16 ++ 0#Config.retryW ++ BitVec.allOnes 13 ++ 0#Config.idBits ++ 0#4 ++
      BitVec.allOnes 4) = _
  simp only [BitVec.and_append, BitVec.and_zero, BitVec.and_allOnes]
  rfl

/-- The word of a well-formed operation passes its opcode's mask. -/
theorem legalWord_encode {i : Instr} (hwf : i.wf = true) : LegalWord (encode i) := by
  cases i with
  | wrfld => exact .inl (encode_wrfld_and_mask ..)
  | rdfld => exact .inr (.inl (encode_rdfld_and_mask ..))
  | lookup => exact .inr (.inr (.inl (encode_lookup_and_mask ..)))
  | classify => exact .inr (.inr (.inr (.inl (encode_classify_and_mask ..))))
  | decode => exact .inr (.inr (.inr (.inr (.inl (encode_decode_and_mask ..)))))
  | encnext sigIdx =>
    obtain ⟨hsig, -⟩ := (decodeEncnext_eq_ok_iff _ _).mp (decodeEncnext_encode (bne_iff_ne.mp hwf))
    exact .inr (.inr (.inr (.inr (.inr (.inl ⟨encode_encnext_and_mask sigIdx, hsig⟩)))))
  | send => exact .inr (.inr (.inr (.inr (.inr (.inr (encode_send_and_mask ..))))))

/-- A slice on which the mask is all ones is known from the masked word. -/
theorem extractLsb'_of_and_eq {l : Nat} {w mask v : BitVec l} (h : w &&& mask = v) (start len : Nat)
    (hmask : mask.extractLsb' start len = BitVec.allOnes len) :
    w.extractLsb' start len = v.extractLsb' start len := by
  rw [← h, BitVec.extractLsb'_and, hmask, BitVec.and_allOnes]

/-- A word that passes a mask has that opcode, and its format's decoder finds every reserved slice zero. -/
theorem decode_of_legalWord {w : Word128} (h : LegalWord w) : ∃ i, decode w = .ok i := by
  simp only [decode_eq_ok_iff]
  obtain h | h | h | h | h | ⟨h, hsig⟩ | h := h <;> have slice := extractLsb'_of_and_eq h
  · exact ⟨_, .inl ⟨slice 0 4 (by decide), (decodeWrfld_eq_ok_iff w _).mpr
      ⟨slice 4 4 (by decide), slice 24 8 (by decide), rfl⟩⟩⟩
  · exact ⟨_, .inr (.inl ⟨slice 0 4 (by decide), (decodeRdfld_eq_ok_iff w _).mpr
      ⟨slice 4 4 (by decide), slice 24 8 (by decide), slice 32 32 (by decide), rfl⟩⟩)⟩
  · exact ⟨_, .inr (.inr (.inl ⟨slice 0 4 (by decide), (decodeLookup_eq_ok_iff w _).mpr
      ⟨slice 4 4 (by decide), slice 19 109 (by decide), rfl⟩⟩))⟩
  · exact ⟨_, .inr (.inr (.inr (.inl ⟨slice 0 4 (by decide), (decodeClassify_eq_ok_iff w _).mpr
      ⟨slice 5 27 (by decide), slice 96 32 (by decide), rfl⟩⟩)))⟩
  · exact ⟨_, .inr (.inr (.inr (.inr (.inl ⟨slice 0 4 (by decide), (decodeDecode_eq_ok_iff w _).mpr
      ⟨slice 19 45 (by decide), rfl⟩⟩))))⟩
  · exact ⟨_, .inr (.inr (.inr (.inr (.inr (.inl ⟨slice 0 4 (by decide), (decodeEncnext_eq_ok_iff w _).mpr
      ⟨hsig, slice 4 4 (by decide), slice 10 118 (by decide), rfl⟩⟩)))))⟩
  · exact ⟨_, .inr (.inr (.inr (.inr (.inr (.inr ⟨slice 0 4 (by decide), (decodeSend_eq_ok_iff w _).mpr
      ⟨slice 19 13 (by decide), slice 48 16 (by decide), rfl⟩⟩)))))⟩

theorem decode_isOk_iff_legalWord (w : Word128) : (∃ i, decode w = .ok i) ↔ LegalWord w := by
  refine ⟨fun ⟨i, h⟩ => ?_, decode_of_legalWord⟩
  obtain ⟨hwf, rfl⟩ := encode_of_decode h
  exact legalWord_encode hwf

/-- Settles O2: `decode_encode`, slice by slice of the encoded word. -/
theorem decodeOfEncodeIsIdentity : Obligations.DecodeOfEncodeIsIdentity := by
  unfold Obligations.DecodeOfEncodeIsIdentity
  exact fun _ => decode_encode

/-- Settles O3: `encode_of_decode`, as a word is the slices that its format cuts it into. -/
theorem encodeOfDecodeIsIdentity : Obligations.EncodeOfDecodeIsIdentity := by
  unfold Obligations.EncodeOfDecodeIsIdentity
  exact fun _ _ => encode_of_decode

/-- Settles O4: a word that decodes is an encoded word, which passes its mask; a word that passes a mask has that
format's opcode and zeros. -/
theorem decoderAcceptsExactlyLegalWords : Obligations.DecoderAcceptsExactlyLegalWords := by
  unfold Obligations.DecoderAcceptsExactlyLegalWords
  exact decode_isOk_iff_legalWord

/-- Settles O1: the seven words are the encodings of their operations, which decoding undoes. -/
theorem requestWordsDecodeAsWritten : Obligations.RequestWordsDecodeAsWritten := by
  unfold Obligations.RequestWordsDecodeAsWritten
  exact ⟨decode_encode (i := .wrfld 0#64 6#8 12#8 1200#32) rfl,
    decode_encode (i := .rdfld 0x0123456789ABCDEF#64 4#8 32#8) rfl,
    decode_encode (i := .lookup 0x7FF#11) rfl,
    decode_encode (i := .classify 421#32 107520#32 .gt) rfl,
    decode_encode (i := .decode 0x600#11 15#4 0x1A500000000#64) rfl,
    decode_encode (i := .encnext 2#2) rfl,
    decode_encode (i := .send 0x400#11 8#4 0x12C00#64 2#16) rfl⟩

end Sys2Proof.Laws

/-! What a requested operation is answered with: the response word of each operation slice by slice (30_encoding.md R90
to R100), in context SEQ and in context DIRECT. -/

namespace Sys2Proof.Machine.Laws

open Sys2Proof.Laws

/-! The slices of a response word. -/

/-- A bit of a slice is the word's bit at its place. -/
theorem getLsbD_of_extractLsb' {l start len : Nat} {x : BitVec l} {y : BitVec len} (h : x.extractLsb' start len = y)
    {k : Nat} (hk : k < len) : x.getLsbD (start + k) = y.getLsbD k := by
  rw [← h, BitVec.getLsbD_extractLsb', decide_eq_true hk, Bool.true_and]

theorem wrfldResponse_slices (st : Status) (b : Buffer) :
    statusOf (wrfldResponse st b) = st.code ∧ (wrfldResponse st b).extractLsb' 4 60 = 0#60 ∧
      (wrfldResponse st b).extractLsb' 64 64 = b := by
  refine ⟨extract_low_append _ _, ?_⟩
  simp (disch := decide) only [wrfldResponse, BitVec.extractLsb'_append_eq_of_le,
    BitVec.extractLsb'_append_eq_of_add_le, extractLsb'_all, extractLsb'_buffer, and_self]

theorem rdfldResponse_slices (v : RawCount) :
    statusOf (rdfldResponse v) = 0#4 ∧ (rdfldResponse v).extractLsb' 4 28 = 0#28 ∧
      (rdfldResponse v).extractLsb' 32 32 = v ∧ (rdfldResponse v).extractLsb' 64 64 = 0#64 := by
  refine ⟨extract_low_append _ _, ?_⟩
  simp (disch := decide) only [rdfldResponse, BitVec.extractLsb'_append_eq_of_le,
    BitVec.extractLsb'_append_eq_of_add_le, extractLsb'_all, and_self]

theorem classifyResponse_slices (warning : Bool) :
    statusOf (classifyResponse warning) = 0#4 ∧ (classifyResponse warning).extractLsb' 5 123 = 0#123 ∧
      (classifyResponse warning).getLsbD 4 = warning := by
  refine ⟨extract_low_append _ _, ?_⟩
  cases warning <;> decide

theorem sampleResponse_slices (x : Sample) :
    statusOf (sampleResponse x) = 0#4 ∧ (sampleResponse x).getLsbD 4 = x.isWarning ∧
      (sampleResponse x).extractLsb' 5 11 = x.frameId ∧ (sampleResponse x).extractLsb' 16 16 = x.scale ∧
      (sampleResponse x).extractLsb' 32 32 = x.rawValue ∧ (sampleResponse x).extractLsb' 64 64 = 0#64 := by
  refine ⟨extract_low_append _ _, ?_⟩
  have hbit : (BitVec.ofBool x.isWarning == 1#1) = x.isWarning := by cases x.isWarning <;> rfl
  simp (disch := decide) only [sampleResponse, BitVec.getLsbD_eq_extractLsb', BitVec.extractLsb'_append_eq_of_le,
    BitVec.extractLsb'_append_eq_of_add_le, extractLsb'_all, hbit, and_self]

theorem noSampleResponse_slices (id : FrameId) (st : Status) :
    statusOf (noSampleResponse id st) = st.code ∧ (noSampleResponse id st).getLsbD 4 = false ∧
      (noSampleResponse id st).extractLsb' 5 11 = id ∧ (noSampleResponse id st).extractLsb' 16 48 = 0#48 ∧
      (noSampleResponse id st).extractLsb' 64 64 = 0#64 := by
  refine ⟨extract_low_append _ _, ?_⟩
  simp (disch := decide) only [noSampleResponse, BitVec.getLsbD_eq_extractLsb', BitVec.extractLsb'_append_eq_of_le,
    BitVec.extractLsb'_append_eq_of_add_le, BitVec.zero_append_zero, BitVec.extractLsb'_zero, extractLsb'_all, and_self]
  decide

/-! One answer in both contexts. -/

/-- Every operation that reads no state has a legal word. -/
theorem wf_of_pureResponse {i : Instr} {q : Word128} (hq : pureResponse i = some q) : i.wf = true := by
  cases i with
  | encnext => cases hq
  | _ => rfl

theorem directResponse_encode {i : Instr} {q : Word128} (hq : pureResponse i = some q) :
    directResponse (encode i) = q := by
  have hseq : ¬ SeqOnly i := fun h => by simp [(pureResponse_eq_none_iff i).mpr h] at hq
  exact Option.some_inj.mp ((pureResponse_of_not_seqOnly (decode_encode (wf_of_pureResponse hq)) hseq).symm.trans hq)

/-- An operation that reads no state answers its response in both contexts and changes nothing inside; what is then left
to say is a property of the response word. -/
theorem answers_of_pureResponse {i : Instr} {q : Word128} {P : Word128 → Prop} (hq : pureResponse i = some q)
    (s : State) (hP : P q) :
    ∃ t q, exec i s = .next t ∧ Responded s t q ∧ SameInside s t ∧ directResponse (encode i) = q ∧ P q :=
  ⟨s.answer q, q, exec_of_pureResponse hq s, responded_answer s q, sameInside_answer s q, directResponse_encode hq, hP⟩

/-! WRFLD and RDFLD: inside the range the buffer access, outside it `OUT_OF_RANGE`. -/

section Codec

variable {start : StartBit} {len : BitLength}

theorem writeField_of_inRange (h : inRange start len = true) (b : Buffer) (v : RawCount) :
    writeField b start len v = some (bufWrite b start.toNat len.toNat v) :=
  if_pos h

theorem writeField_of_not_inRange (h : ¬ inRange start len = true) (b : Buffer) (v : RawCount) :
    writeField b start len v = none :=
  if_neg h

theorem readField_of_inRange (h : inRange start len = true) (b : Buffer) :
    readField b start len = some (bufRead b start.toNat len.toNat) :=
  if_pos h

theorem readField_of_not_inRange (h : ¬ inRange start len = true) (b : Buffer) : readField b start len = none :=
  if_neg h

theorem wrfldWord_of_inRange (h : inRange start len = true) (b : Buffer) (v : RawCount) :
    wrfldWord b start len v = wrfldResponse .ok (bufWrite b start.toNat len.toNat v) := by
  simp only [wrfldWord, writeField_of_inRange h]

theorem wrfldWord_of_not_inRange (h : ¬ inRange start len = true) (b : Buffer) (v : RawCount) :
    wrfldWord b start len v = wrfldResponse .outOfRange b := by
  simp only [wrfldWord, writeField_of_not_inRange h]

theorem rdfldWord_of_inRange (h : inRange start len = true) (b : Buffer) :
    rdfldWord b start len = rdfldResponse (bufRead b start.toNat len.toNat) := by
  simp only [rdfldWord, readField_of_inRange h]

theorem rdfldWord_of_not_inRange (h : ¬ inRange start len = true) (b : Buffer) :
    rdfldWord b start len = Status.outOfRange.response := by
  simp only [rdfldWord, readField_of_not_inRange h]

end Codec

/-- Settles O9: in either case of the range check the response word, slice by slice. -/
theorem wrfldWritesTheFieldOrNothing : Obligations.WrfldWritesTheFieldOrNothing := by
  unfold Obligations.WrfldWritesTheFieldOrNothing
  intro b start len v s
  refine answers_of_pureResponse rfl s ?_
  by_cases h : inRange start len = true
  · obtain ⟨hstatus, hzero, hbuffer⟩ := wrfldResponse_slices .ok (bufWrite b start.toNat len.toNat v)
    have hrange := (inRange_iff start len).mp h
    have ⟨_, hlen, _⟩ := hrange
    rw [wrfldWord_of_inRange h, if_pos hrange]
    refine ⟨hzero, hstatus, fun k hk => ?_⟩
    rw [getLsbD_of_extractLsb' hbuffer hk, bufWrite_getLsbD b _ _ k v hlen hk]
  · obtain ⟨hstatus, hzero, hbuffer⟩ := wrfldResponse_slices .outOfRange b
    rw [wrfldWord_of_not_inRange h, if_neg (mt (inRange_iff start len).mpr h)]
    exact ⟨hzero, hstatus, hbuffer⟩

/-- Settles O10: in either case of the range check the response word, slice by slice. -/
theorem rdfldReadsTheFieldOrZero : Obligations.RdfldReadsTheFieldOrZero := by
  unfold Obligations.RdfldReadsTheFieldOrZero
  intro b start len s
  refine answers_of_pureResponse rfl s ?_
  by_cases h : inRange start len = true
  · obtain ⟨hstatus, hzero, hvalue, hhigh⟩ := rdfldResponse_slices (bufRead b start.toNat len.toNat)
    have hrange := (inRange_iff start len).mp h
    have ⟨_, hlen, _⟩ := hrange
    rw [rdfldWord_of_inRange h, if_pos hrange]
    refine ⟨hzero, hhigh, hstatus, fun k hk => ?_⟩
    rw [getLsbD_of_extractLsb' hvalue hk, bufRead_getLsbD b _ _ k hlen]
  · rw [rdfldWord_of_not_inRange h, if_neg (mt (inRange_iff start len).mpr h)]
    decide

/-! CLASSIFY: the 40-bit product does not wrap. -/

/-- `raw * 256` fits 40 bits (42_classifier.md R156). -/
theorem rawTimes256_toNat (raw : RawCount) : (raw.setWidth 40 <<< Config.frac).toNat = raw.toNat * 256 := by
  have hraw := rawCount_lt raw
  rw [BitVec.toNat_shiftLeft, BitVec.toNat_setWidth, Nat.shiftLeft_eq, frac_eq]
  omega

theorem thr_setWidth_toNat (thr : Quantity) : (thr.setWidth 40).toNat = thr.toNat := by
  have hthr := quantity_lt thr
  rw [BitVec.toNat_setWidth]
  omega

theorem isWarning_ge_iff (raw : RawCount) (thr : Quantity) :
    isWarning raw thr .ge = true ↔ thr.toNat ≤ raw.toNat * 256 := by
  simp only [isWarning, BitVec.ule, rawTimes256_toNat, thr_setWidth_toNat, decide_eq_true_eq]

theorem isWarning_gt_iff (raw : RawCount) (thr : Quantity) :
    isWarning raw thr .gt = true ↔ thr.toNat < raw.toNat * 256 := by
  simp only [isWarning, BitVec.ult, rawTimes256_toNat, thr_setWidth_toNat, decide_eq_true_eq]

/-- Settles O16: bit 4 of the response is the comparator's verdict. -/
theorem classifyComparesRawTimes256 : Obligations.ClassifyComparesRawTimes256 := by
  unfold Obligations.ClassifyComparesRawTimes256
  intro raw thr cmp s
  refine answers_of_pureResponse rfl s ?_
  obtain ⟨hstatus, hzero, hverdict⟩ := classifyResponse_slices (isWarning raw thr cmp)
  refine ⟨hstatus, hzero, ?_⟩
  rw [hverdict]
  cases cmp with
  | ge => exact isWarning_ge_iff raw thr
  | gt => exact isWarning_gt_iff raw thr

/-! LOOKUP and DECODE: the scan, then the entry it finds. -/

@[simp] theorem entry_zero (t : Table) : t.entry 0 = t.voltage := rfl
@[simp] theorem entry_one (t : Table) : t.entry 1 = t.current := rfl
@[simp] theorem entry_two (t : Table) : t.entry 2 = t.temperature := rfl

/-- The scan, written out (41_descriptor_lookup.md R143). -/
theorem lookupSignal_eq (t : Table) (id : FrameId) :
    lookupSignal t id =
      if id = t.voltage.frameId then some 0 else if id = t.current.frameId then some 1
      else if id = t.temperature.frameId then some 2 else none := by
  simp only [lookupSignal, List.find?_cons, List.find?_nil, entry_zero, entry_one, entry_two]
  split_ifs with hvoltage hcurrent htemperature
  · simp only [beq_iff_eq.mpr hvoltage.symm]
  · simp only [beq_eq_false_iff_ne.mpr (Ne.symm hvoltage), beq_iff_eq.mpr hcurrent.symm]
  · simp only [beq_eq_false_iff_ne.mpr (Ne.symm hvoltage), beq_eq_false_iff_ne.mpr (Ne.symm hcurrent),
      beq_iff_eq.mpr htemperature.symm]
  · simp only [beq_eq_false_iff_ne.mpr (Ne.symm hvoltage), beq_eq_false_iff_ne.mpr (Ne.symm hcurrent),
      beq_eq_false_iff_ne.mpr (Ne.symm htemperature)]

/-- The identifiers of this hardware (41_descriptor_lookup.md R142). -/
theorem lookupSignal_table (id : FrameId) :
    lookupSignal Config.table id =
      if id = 0x400#11 then some 0 else if id = 0x500#11 then some 1 else if id = 0x600#11 then some 2 else none :=
  lookupSignal_eq Config.table id

theorem lookupWord_of_some {t : Table} {id : FrameId} {i : Fin Config.numSignals} (h : lookupSignal t id = some i) :
    lookupWord t id = lookupResponse i (t.entry i) := by
  simp only [lookupWord, h]

theorem lookupWord_of_none {t : Table} {id : FrameId} (h : lookupSignal t id = none) :
    lookupWord t id = Status.unknownSignal.response := by
  simp only [lookupWord, h]

/-- Settles O13: the scan of this hardware's table, and the response word of each entry. -/
theorem lookupKnowsExactlyThreeIdentifiers : Obligations.LookupKnowsExactlyThreeIdentifiers := by
  unfold Obligations.LookupKnowsExactlyThreeIdentifiers
  intro id s
  refine answers_of_pureResponse rfl s ?_
  have hscan := lookupSignal_table id
  split_ifs at hscan ⊢
  · rw [lookupWord_of_some hscan]
    rfl
  · rw [lookupWord_of_some hscan]
    rfl
  · rw [lookupWord_of_some hscan]
    rfl
  · rw [lookupWord_of_none hscan]
    rfl

theorem decodeWord_of_unknown {t : Table} {id : FrameId} (h : lookupSignal t id = none) (p : Buffer) :
    decodeWord t id p = noSampleResponse id .unknownSignal := by
  simp only [decodeWord, decodeFrame, h]

section Decode

variable {t : Table} {id : FrameId} {i : Fin Config.numSignals}

theorem decodeWord_of_inRange (h : lookupSignal t id = some i)
    (hrange : inRange (t.entry i).startBit (t.entry i).bitLength = true) (p : Buffer) :
    decodeWord t id p =
      let raw := bufRead p (t.entry i).startBit.toNat (t.entry i).bitLength.toNat
      sampleResponse ⟨id, raw, (t.entry i).scale, isWarning raw (t.entry i).thr (t.entry i).cmp⟩ := by
  simp only [decodeWord, decodeFrame, h, readField_of_inRange hrange]

theorem decodeWord_of_not_inRange (h : lookupSignal t id = some i)
    (hrange : ¬ inRange (t.entry i).startBit (t.entry i).bitLength = true) (p : Buffer) :
    decodeWord t id p = noSampleResponse id .outOfRange := by
  simp only [decodeWord, decodeFrame, h, readField_of_not_inRange hrange]

/-- A decoded frame, slice by slice: the identifier, and of its own entry the scale, the field and the verdict
(43_frame_decoder.md R171). -/
theorem decodeWord_slices (h : lookupSignal t id = some i)
    (hrange : inRange (t.entry i).startBit (t.entry i).bitLength = true) (p : Buffer) :
    (decodeWord t id p).extractLsb' 5 11 = id ∧ (decodeWord t id p).extractLsb' 64 64 = 0#64 ∧
    statusOf (decodeWord t id p) = 0#4 ∧ (decodeWord t id p).extractLsb' 16 16 = (t.entry i).scale ∧
    ((decodeWord t id p).extractLsb' 32 32).toNat =
      p.toNat / 2 ^ (t.entry i).startBit.toNat % 2 ^ (t.entry i).bitLength.toNat ∧
    (decodeWord t id p).getLsbD 4 =
      isWarning (bufRead p (t.entry i).startBit.toNat (t.entry i).bitLength.toNat) (t.entry i).thr (t.entry i).cmp := by
  obtain ⟨-, hlen, -⟩ := (inRange_iff _ _).mp hrange
  rw [decodeWord_of_inRange h hrange]
  obtain ⟨hstatus, hverdict, hid, hscale, hraw, hhigh⟩ := sampleResponse_slices
    ⟨id, bufRead p (t.entry i).startBit.toNat (t.entry i).bitLength.toNat, (t.entry i).scale,
      isWarning (bufRead p (t.entry i).startBit.toNat (t.entry i).bitLength.toNat) (t.entry i).thr (t.entry i).cmp⟩
  simp only [hstatus, hverdict, hid, hscale, hraw, hhigh, bufRead_toNat _ _ _ hlen, and_self]

/-- The verdict of an entry that compares with GE, as a statement about numbers. -/
theorem decodeWord_verdict_ge (h : lookupSignal t id = some i)
    (hrange : inRange (t.entry i).startBit (t.entry i).bitLength = true) (hcmp : (t.entry i).cmp = .ge) (p : Buffer) :
    (decodeWord t id p).getLsbD 4 = true ↔
      (t.entry i).thr.toNat ≤ p.toNat / 2 ^ (t.entry i).startBit.toNat % 2 ^ (t.entry i).bitLength.toNat * 256 := by
  obtain ⟨-, hlen, -⟩ := (inRange_iff _ _).mp hrange
  obtain ⟨-, -, -, -, -, hverdict⟩ := decodeWord_slices h hrange p
  rw [hverdict, hcmp, isWarning_ge_iff, bufRead_toNat _ _ _ hlen]

/-- The verdict of an entry that compares with GT, as a statement about numbers. -/
theorem decodeWord_verdict_gt (h : lookupSignal t id = some i)
    (hrange : inRange (t.entry i).startBit (t.entry i).bitLength = true) (hcmp : (t.entry i).cmp = .gt) (p : Buffer) :
    (decodeWord t id p).getLsbD 4 = true ↔
      (t.entry i).thr.toNat < p.toNat / 2 ^ (t.entry i).startBit.toNat % 2 ^ (t.entry i).bitLength.toNat * 256 := by
  obtain ⟨-, hlen, -⟩ := (inRange_iff _ _).mp hrange
  obtain ⟨-, -, -, -, -, hverdict⟩ := decodeWord_slices h hrange p
  rw [hverdict, hcmp, isWarning_gt_iff, bufRead_toNat _ _ _ hlen]

end Decode

/-- The zeros above the identifier of a response without a sample are one slice. -/
theorem noSampleResponse_eq (id : FrameId) (st : Status) :
    noSampleResponse id st = 0#112 ++ id ++ 0#1 ++ st.code := by
  rw [noSampleResponse, BitVec.zero_append_zero, BitVec.zero_append_zero]

/-- Settles O21: the range check's refusal, and before it the scan's. -/
theorem decodeOfIllFormedEntryIsOutOfRange : Obligations.DecodeOfIllFormedEntryIsOutOfRange := by
  unfold Obligations.DecodeOfIllFormedEntryIsOutOfRange
  refine fun tbl id p => ⟨fun i hi hrange => ?_, fun hnone => ?_⟩
  · rw [decodeWord_of_not_inRange hi (mt (inRange_iff _ _).mp hrange), noSampleResponse_eq]
    rfl
  · rw [decodeWord_of_unknown hnone, noSampleResponse_eq]
    rfl

/-- Settles O19: for each identifier of this hardware its own entry, which is in range; else no sample. -/
theorem decodeRoutesByIdentifier : Obligations.DecodeRoutesByIdentifier := by
  unfold Obligations.DecodeRoutesByIdentifier
  intro id length p s
  refine answers_of_pureResponse rfl s ?_
  have hscan := lookupSignal_table id
  split_ifs at hscan ⊢
  · obtain ⟨hid, hhigh, hstatus, hscale, hraw, -⟩ := decodeWord_slices hscan (by decide) p
    exact ⟨hid, hhigh, hstatus, hscale, hraw, decodeWord_verdict_ge hscan (by decide) rfl p⟩
  · obtain ⟨hid, hhigh, hstatus, hscale, hraw, -⟩ := decodeWord_slices hscan (by decide) p
    exact ⟨hid, hhigh, hstatus, hscale, hraw, decodeWord_verdict_ge hscan (by decide) rfl p⟩
  · obtain ⟨hid, hhigh, hstatus, hscale, hraw, -⟩ := decodeWord_slices hscan (by decide) p
    exact ⟨hid, hhigh, hstatus, hscale, hraw, decodeWord_verdict_gt hscan (by decide) rfl p⟩
  · obtain ⟨hstatus, hverdict, hid, hzero, hhigh⟩ := noSampleResponse_slices id .unknownSignal
    rw [decodeWord_of_unknown hscan]
    exact ⟨hid, hhigh, hstatus, hverdict, hzero⟩

/-! Illegal words and the decoded request. -/

theorem decode_eq_error_of_not_legalWord {w : Word128} (h : ¬ LegalWord w) : ∃ e, decode w = .error e := by
  cases hw : decode w with
  | ok i => exact absurd ((decode_isOk_iff_legalWord w).mp ⟨i, hw⟩) h
  | error e => exact ⟨e, rfl⟩

/-- Settles O5: a word that does not decode is answered the bare status by the port and by the direct response. -/
theorem illegalWordAnsweredWithoutEffect : Obligations.IllegalWordAnsweredWithoutEffect := by
  unfold Obligations.IllegalWordAnsweredWithoutEffect
  intro w hillegal
  obtain ⟨e, he⟩ := decode_eq_error_of_not_legalWord hillegal
  refine ⟨by simp only [directResponse, he]; rfl, fun s hreset hreq => ?_⟩
  have hstep : step s = .next s.answerIllegal := by rw [step_of_request hreset hreq, serve, he]
  exact ⟨_, hstep, responded_answer s _, sameInside_answer s _⟩

theorem step_of_decode {s : State} {w : Word128} {i : Instr} (hreset : s.resetLine = false)
    (hreq : s.seqPort.request = some w) (hd : decode w = .ok i) : step s = exec i s := by
  rw [step_of_request hreset hreq, serve_of_decode hd]

theorem decode_of_decodeTableWord {nbits w : Nat} {i : Instr} (h : decodeTableWord nbits w = some i) :
    decode (BitVec.ofNat 128 (w % 2 ^ nbits)) = .ok i := by
  unfold decodeTableWord at h
  split at h
  · next j hj => cases h; exact hj
  · cases h

/-- Settles O6: the word on the port is served, and serving a word that decodes is running its operation. -/
theorem stepRunsTheDecodedRequest : Obligations.StepRunsTheDecodedRequest := by
  unfold Obligations.StepRunsTheDecodedRequest
  exact ⟨fun _ _ _ => step_of_decode, fun _ _ _ _ h => step_of_decode rfl rfl (decode_of_decodeTableWord h)⟩

/-! SEND: one pass with the channel's listed answer, and its three ends (45_channel_transmit.md R211, R213). -/

theorem txAnswer_of_listed {e : Env} {a : TxAnswer} {rest : List TxAnswer} (h : e.txAnswers = a :: rest) :
    e.txAnswer = (a, { e with txAnswers := rest }) := by
  simp only [Env.txAnswer, h]

section SendStep

variable {s : State} {m : RetryCount} (f : Frame)

theorem sendStep_of_sent (h : s.env.txAnswer.1 = .sent) :
    sendStep f m s = ((s.trySend f).2.setRetry s.sendCount).answer Status.ok.response := by
  simp only [sendStep, trySend_answer, h, sendPass]

theorem sendStep_of_saturated (h : s.env.txAnswer.1 = .busy) (hbound : s.sendCount = m) :
    sendStep f m s = ((s.trySend f).2.setRetry s.sendCount).answer Status.channelSaturated.response := by
  simp only [sendStep, trySend_answer, h, sendPass, if_pos hbound]

theorem sendStep_of_again (h : s.env.txAnswer.1 = .busy) (hbound : s.sendCount ≠ m) :
    sendStep f m s = { ((s.trySend f).2.setRetry (s.sendCount + 1#16)).clearResponse with sending := true } := by
  simp only [sendStep, trySend_answer, h, sendPass, if_neg hbound]

end SendStep

/-- Whatever its end, a pass offers the frame once and takes one answer. -/
theorem sendStep_trace_env (f : Frame) (m : RetryCount) (s : State) :
    (sendStep f m s).trace = s.trace ++ [.trySend f s.env.txAnswer.1] ∧ (sendStep f m s).env = s.env.txAnswer.2 := by
  unfold sendStep
  cases sendPass (s.trySend f).1 s.sendCount m <;> exact ⟨rfl, rfl⟩

/-- Settles O29: the frame is offered once whatever the pass's end, and each end by its own equation. -/
theorem sendPassOffersTheFrameOnce : Obligations.SendPassOffersTheFrameOnce := by
  unfold Obligations.SendPassOffersTheFrameOnce
  intro id length p m s a rest hlisted n
  have hanswer : s.env.txAnswer = (a, { s.env with txAnswers := rest }) := txAnswer_of_listed hlisted
  have ha : s.env.txAnswer.1 = a := by rw [hanswer]
  obtain ⟨htrace, henv⟩ := sendStep_trace_env ⟨id, length, p⟩ m s
  rw [hanswer] at htrace henv
  refine ⟨sendStep ⟨id, length, p⟩ m s, rfl, htrace, henv, ?_⟩
  cases a with
  | sent =>
    rw [sendStep_of_sent _ ha]
    exact ⟨responded_answer s _, rfl⟩
  | busy =>
    by_cases hbound : n = m
    · rw [sendStep_of_saturated _ ha hbound, if_pos hbound]
      exact ⟨responded_answer s _, rfl⟩
    · rw [sendStep_of_again _ ha hbound, if_neg hbound]
      exact ⟨rfl, rfl, rfl, rfl, rfl⟩

end Sys2Proof.Machine.Laws

/-! The codec's round trip and non-clobber laws (40_bitfield_codec.md R128, R129): reading back a written field, and two
writes to fields that share no bit. -/

namespace Sys2Proof.Machine.Laws

open Sys2Proof.Laws

/-- R128 on the buffer: the later contents of the field are the value's low bits, whatever the buffer held before. -/
theorem bufRead_bufWrite_toNat (b : Buffer) (s n : Nat) (v : RawCount) (hn : n ≤ 32) (hsn : s + n ≤ 64) :
    (bufRead (bufWrite b s n v) s n).toNat = v.toNat % 2 ^ n := by
  rw [bufRead_toNat _ s n hn, bufWrite_field b s n v hn hsn]

/-- R129 on the buffer: a bit lies in at most one of two disjoint fields, so the order of the writes does not matter. -/
theorem bufWrite_comm_of_disjoint (b : Buffer) {s₁ n₁ s₂ n₂ : Nat} (v₁ v₂ : RawCount) (hn₁ : n₁ ≤ 32) (hn₂ : n₂ ≤ 32)
    (hdisjoint : s₁ + n₁ ≤ s₂ ∨ s₂ + n₂ ≤ s₁) :
    bufWrite (bufWrite b s₁ n₁ v₁) s₂ n₂ v₂ = bufWrite (bufWrite b s₂ n₂ v₂) s₁ n₁ v₁ := by
  refine BitVec.eq_of_getLsbD_eq fun k hk => ?_
  rw [bufBits_eq] at hk
  simp only [bufWrite_getLsbD _ s₁ n₁ k v₁ hn₁ hk, bufWrite_getLsbD _ s₂ n₂ k v₂ hn₂ hk]
  by_cases hfirst : s₁ ≤ k ∧ k < s₁ + n₁
  · have hnotSecond : ¬ (s₂ ≤ k ∧ k < s₂ + n₂) := by omega
    simp only [if_pos hfirst, if_neg hnotSecond]
  · simp only [if_neg hfirst]

/-- The buffer that an in-range WRFLD returns (30_encoding.md R91). -/
theorem wrfldWord_buffer {start : StartBit} {len : BitLength} (h : inRange start len = true) (b : Buffer) (v : RawCount) :
    (wrfldWord b start len v).extractLsb' 64 64 = bufWrite b start.toNat len.toNat v := by
  obtain ⟨-, -, hbuffer⟩ := wrfldResponse_slices .ok (bufWrite b start.toNat len.toNat v)
  rw [wrfldWord_of_inRange h, hbuffer]

/-- The value that an in-range RDFLD returns (30_encoding.md R92). -/
theorem rdfldWord_value {start : StartBit} {len : BitLength} (h : inRange start len = true) (b : Buffer) :
    (rdfldWord b start len).extractLsb' 32 32 = bufRead b start.toNat len.toNat := by
  obtain ⟨-, -, hvalue, -⟩ := rdfldResponse_slices (bufRead b start.toNat len.toNat)
  rw [rdfldWord_of_inRange h, hvalue]

/-- Settles O11: the two response words carry the buffer write and the buffer read, which `bufRead_bufWrite_toNat` joins. -/
theorem readAfterWriteReturnsTheLowBits : Obligations.ReadAfterWriteReturnsTheLowBits := by
  unfold Obligations.ReadAfterWriteReturnsTheLowBits
  intro b start len v hpos hlen hend
  have hrange : inRange start len = true := (inRange_iff start len).mpr ⟨hpos, hlen, hend⟩
  rw [wrfldWord_buffer hrange, rdfldWord_value hrange, bufRead_bufWrite_toNat b _ _ v hlen hend]

/-- Settles O12: as the writes commute, each field may be taken as the one written last, and is read back as such. -/
theorem disjointFieldsDoNotDisturbEachOther : Obligations.DisjointFieldsDoNotDisturbEachOther := by
  unfold Obligations.DisjointFieldsDoNotDisturbEachOther
  intro b start₁ start₂ len₁ len₂ v₁ v₂ hpos₁ hlen₁ hend₁ hpos₂ hlen₂ hend₂ hdisjoint
  have hrange₁ : inRange start₁ len₁ = true := (inRange_iff start₁ len₁).mpr ⟨hpos₁, hlen₁, hend₁⟩
  have hrange₂ : inRange start₂ len₂ = true := (inRange_iff start₂ len₂).mpr ⟨hpos₂, hlen₂, hend₂⟩
  have hcomm := bufWrite_comm_of_disjoint b v₁ v₂ hlen₁ hlen₂ hdisjoint
  refine ⟨_, _, _, writeField_of_inRange hrange₁ b v₁, writeField_of_inRange hrange₂ b v₂,
    writeField_of_inRange hrange₂ _ v₂, ?_, ⟨_, readField_of_inRange hrange₁ _, ?_⟩,
    ⟨_, readField_of_inRange hrange₂ _, ?_⟩⟩
  · rw [hcomm, writeField_of_inRange hrange₁]
  · rw [hcomm, bufRead_bufWrite_toNat _ _ _ v₁ hlen₁ hend₁]
  · exact bufRead_bufWrite_toNat _ _ _ v₂ hlen₂ hend₂

end Sys2Proof.Machine.Laws

/-! The descriptor table (41_descriptor_lookup.md R143, R145): what the scan answers in any table, and that with a
well-formed one the range check always passes and each identifier leads to its own entry, so that DECODE undoes ENCNEXT
(44_frame_encoder.md R195). -/

namespace Sys2Proof.Machine.Laws

open Sys2Proof.Laws

/-! The scan. -/

/-- The scan is the library's search for the least index of `Fin 3`. -/
theorem lookupSignal_eq_find? (t : Table) (id : FrameId) :
    lookupSignal t id = Fin.find? fun i => (t.entry i).frameId == id := by
  rw [Fin.find?_eq_find?_finRange]
  rfl

/-- R143: the scan stops at the first entry with the identifier. -/
theorem lookupSignal_eq_some_iff (t : Table) (id : FrameId) (i : Fin Config.numSignals) :
    lookupSignal t id = some i ↔ (t.entry i).frameId = id ∧ ∀ j, j < i → (t.entry j).frameId ≠ id := by
  rw [lookupSignal_eq_find?, Fin.find?_eq_some_iff]
  simp only [beq_iff_eq, beq_eq_false_iff_ne]

/-- Settles O14: the scan is a search for the least index, which `lookupSignal_eq_some_iff` characterises. -/
theorem lookupTakesTheLowestMatch : Obligations.LookupTakesTheLowestMatch := by
  unfold Obligations.LookupTakesTheLowestMatch
  exact lookupSignal_eq_some_iff

/-! A well-formed table (41_descriptor_lookup.md R145). -/

theorem inRange_of_descriptor_wf {d : Descriptor} (h : d.wf = true) : inRange d.startBit d.bitLength = true := by
  unfold Descriptor.wf at h
  exact (Bool.and_eq_true_iff.mp h).1

section WellFormedTable

variable {t : Table}

theorem entry_wf (h : t.wf = true) (i : Fin Config.numSignals) : (t.entry i).wf = true := by
  simp only [Table.wf, Bool.and_eq_true] at h
  obtain ⟨⟨⟨⟨⟨hvoltage, hcurrent⟩, htemperature⟩, -⟩, -⟩, -⟩ := h
  match i with
  | 0 => exact hvoltage
  | 1 => exact hcurrent
  | 2 => exact htemperature

theorem inRange_entry (h : t.wf = true) (i : Fin Config.numSignals) :
    inRange (t.entry i).startBit (t.entry i).bitLength = true :=
  inRange_of_descriptor_wf (entry_wf h i)

/-- No identifier stands in the table twice (41_descriptor_lookup.md R141). -/
theorem entry_frameId_ne (h : t.wf = true) {i j : Fin Config.numSignals} (hij : i ≠ j) :
    (t.entry i).frameId ≠ (t.entry j).frameId := by
  simp only [Table.wf, Bool.and_eq_true, bne_iff_ne] at h
  obtain ⟨⟨⟨-, hvc⟩, hvt⟩, hct⟩ := h
  match i, j with
  | 0, 0 | 1, 1 | 2, 2 => exact absurd rfl hij
  | 0, 1 => exact hvc
  | 0, 2 => exact hvt
  | 1, 2 => exact hct
  | 1, 0 => exact hvc.symm
  | 2, 0 => exact hvt.symm
  | 2, 1 => exact hct.symm

/-- The scan for an entry's own identifier finds that entry. -/
theorem lookupSignal_entry (h : t.wf = true) (i : Fin Config.numSignals) :
    lookupSignal t (t.entry i).frameId = some i :=
  (lookupSignal_eq_some_iff t _ i).mpr ⟨rfl, fun _ hji => entry_frameId_ne h (ne_of_lt hji)⟩

end WellFormedTable

/-! DECODE and ENCNEXT on an entry that passes the range check. -/

theorem decodeFrame_of_inRange {t : Table} {id : FrameId} {i : Fin Config.numSignals} (h : lookupSignal t id = some i)
    (hrange : inRange (t.entry i).startBit (t.entry i).bitLength = true) (p : Buffer) :
    decodeFrame t id p =
      let raw := bufRead p (t.entry i).startBit.toNat (t.entry i).bitLength.toNat
      .sample ⟨id, raw, (t.entry i).scale, isWarning raw (t.entry i).thr (t.entry i).cmp⟩ := by
  simp only [decodeFrame, h, readField_of_inRange hrange]

theorem decodeFrame_of_unknown {t : Table} {id : FrameId} (h : lookupSignal t id = none) (p : Buffer) :
    decodeFrame t id p = .unknownSignal := by
  simp only [decodeFrame, h]

/-- The frame holds the rounded current in the entry's field, over a zero payload (44_frame_encoder.md R187, R190). -/
theorem encodeSignal_of_inRange {t : Table} {i : Fin Config.numSignals}
    (hrange : inRange (t.entry i).startBit (t.entry i).bitLength = true) (e : Engine) :
    encodeSignal t i e =
      some (⟨(t.entry i).frameId, .eight, bufWrite 0#64 (t.entry i).startBit.toNat (t.entry i).bitLength.toNat
        (roundHalfUp (e.sweep.get i).current)⟩, { e with sweep := e.sweep.set i (e.sweep.get i).advance }) := by
  simp only [encodeSignal, encodeNext, writeField_of_inRange hrange]

/-- R188: the 33-bit sum does not wrap. -/
theorem roundHalfUp_toNat (q : Quantity) : (roundHalfUp q).toNat = (q.toNat + 128) / 256 := by
  have hq := quantity_lt q
  simp only [roundHalfUp, BitVec.toNat_setWidth, BitVec.toNat_ushiftRight, BitVec.toNat_add, BitVec.toNat_ofNat,
    Nat.shiftRight_eq_div_pow, frac_eq, valW_eq]
  omega

/-- Settles O15: an unknown identifier is answered as such, and every entry passes the range check. -/
theorem wellFormedTableIsNeverOutOfRange : Obligations.WellFormedTableIsNeverOutOfRange := by
  unfold Obligations.WellFormedTableIsNeverOutOfRange
  refine ⟨by decide, fun t hwf => ⟨fun id p => ?_, fun i e => ?_⟩⟩
  · cases hscan : lookupSignal t id with
    | none => simp [decodeFrame_of_unknown hscan]
    | some i => simp [decodeFrame_of_inRange hscan (inRange_entry hwf i)]
  · simp [encodeSignal_of_inRange (inRange_entry hwf i)]

/-- Settles O26: the scan leads back to the entry that was encoded, and the read of its field undoes the write. -/
theorem decodeUndoesEncode : Obligations.DecodeUndoesEncode := by
  unfold Obligations.DecodeUndoesEncode
  intro t i e hwf
  have hrange := inRange_entry hwf i
  obtain ⟨-, hlen, hend⟩ := (inRange_iff _ _).mp hrange
  refine ⟨_, _, _, encodeSignal_of_inRange hrange e,
    decodeFrame_of_inRange (lookupSignal_entry hwf i) hrange _, rfl, rfl, rfl, ?_, rfl⟩
  rw [TxFrame.frame, bufRead_bufWrite_toNat _ _ _ _ hlen hend, roundHalfUp_toNat]

end Sys2Proof.Machine.Laws

/-! The threshold comparator over the rationals (42_classifier.md R157, R158): a threshold and a physical value of one
scale are naturals over one positive denominator, so the rational comparison is the comparator's comparison of `raw * 256`
with `thr`. -/

namespace Sys2Proof.Machine.Laws

open Sys2Proof.Laws

/-! The physical quantities at a scale of at least 1. -/

theorem scale_ne_zero {scale : Scale} (h : 1 ≤ scale.toNat) : scale ≠ 0#16 := by
  rintro rfl
  exact absurd h (by decide)

/-- The denominator of 00_scope.md R11 is positive. -/
theorem denominator_pos {scale : Scale} (h : 1 ≤ scale.toNat) : (0 : ℚ) < 256 * (scale.toNat : ℚ) :=
  mul_pos (by norm_num) (Nat.cast_pos.mpr h)

theorem physOf_eq_div {scale : Scale} (h : 1 ≤ scale.toNat) (q : Quantity) :
    physOf q scale = (q.toNat : ℚ) / (256 * (scale.toNat : ℚ)) := by
  rw [physOf, if_neg (scale_ne_zero h), frac_eq]
  norm_num

/-- `raw / scale` over the threshold's denominator: both sides of the fraction times 256. -/
theorem physicalValue_eq_div {x : Sample} (h : 1 ≤ x.scale.toNat) :
    x.physicalValue = ((x.rawValue.toNat * 256 : ℕ) : ℚ) / (256 * (x.scale.toNat : ℚ)) := by
  rw [Sample.physicalValue, if_neg (scale_ne_zero h), Nat.cast_mul, mul_comm (x.rawValue.toNat : ℚ)]
  exact (mul_div_mul_left _ _ (by norm_num)).symm

section OneScale

variable {x : Sample} {d : Descriptor} (hscale : 1 ≤ d.scale.toNat) (hx : x.scale = d.scale)
include hscale hx

theorem warnThreshold_le_physicalValue_iff :
    d.warnThreshold ≤ x.physicalValue ↔ d.thr.toNat ≤ x.rawValue.toNat * 256 := by
  rw [Descriptor.warnThreshold, physOf_eq_div hscale, physicalValue_eq_div (hx ▸ hscale), hx,
    div_le_div_iff_of_pos_right (denominator_pos hscale), Nat.cast_le]

theorem warnThreshold_lt_physicalValue_iff :
    d.warnThreshold < x.physicalValue ↔ d.thr.toNat < x.rawValue.toNat * 256 := by
  rw [Descriptor.warnThreshold, physOf_eq_div hscale, physicalValue_eq_div (hx ▸ hscale), hx,
    div_lt_div_iff_of_pos_right (denominator_pos hscale), Nat.cast_lt]

end OneScale

/-- Settles O17: for either code, both comparisons are the comparison of `raw * 256` with `thr` over the naturals. -/
theorem classifierIsTheRationalComparison : Obligations.ClassifierIsTheRationalComparison := by
  unfold Obligations.ClassifierIsTheRationalComparison
  intro x d hscale hx
  cases d.cmp with
  | ge => exact (isWarning_ge_iff _ _).trans (warnThreshold_le_physicalValue_iff hscale hx).symm
  | gt => exact (isWarning_gt_iff _ _).trans (warnThreshold_lt_physicalValue_iff hscale hx).symm

/-- Settles O18: `thr ≤ raw * 256` and `thr < raw * 256` part at equality only. -/
theorem comparisonsDifferOnlyAtEquality : Obligations.ComparisonsDifferOnlyAtEquality := by
  unfold Obligations.ComparisonsDifferOnlyAtEquality
  intro raw thr
  rw [Ne, Bool.eq_iff_iff, isWarning_ge_iff, isWarning_gt_iff]
  omega

end Sys2Proof.Machine.Laws

/-! Operations with one pure response cannot be told apart; DECODE at two lengths is such a pair (43_frame_decoder.md
R176). -/

namespace Sys2Proof.Machine.Laws

/-- Two operations with the same pure response answer alike in both contexts. -/
theorem answers_congr_of_pureResponse {i j : Instr} {q : Word128} (hi : pureResponse i = some q)
    (hj : pureResponse j = some q) (s : State) :
    exec i s = exec j s ∧ directResponse (encode i) = directResponse (encode j) :=
  ⟨(exec_of_pureResponse hi s).trans (exec_of_pureResponse hj s).symm,
    (directResponse_encode hi).trans (directResponse_encode hj).symm⟩

/-- The response word of DECODE is that of its identifier and payload, at every length. -/
theorem pureResponse_decode (id : FrameId) (length : BitVec 4) (p : Buffer) :
    pureResponse (.decode id length p) = some (decodeWord Config.table id p) :=
  rfl

/-- Settles O20: at either length the pure response of DECODE is the same word. -/
theorem decodeDoesNotReadTheLength : Obligations.DecodeDoesNotReadTheLength := by
  unfold Obligations.DecodeDoesNotReadTheLength
  intro id length₁ length₂ p s
  exact answers_congr_of_pureResponse (pureResponse_decode id length₁ p) (pureResponse_decode id length₂ p) s

end Sys2Proof.Machine.Laws

/-! The frame encoder and its sweeps (44_frame_encoder.md R186 to R194): rounding over the rationals, what ENCNEXT answers
and leaves on either side of the range check, and the orbit of the voltage sweep. -/

namespace Sys2Proof.Machine.Laws

open Sys2Proof.Laws

/-- Settles O22: the rational `q / 256 + 1/2` is the fraction `(q + 128) / 256`, whose floor is the natural quotient. -/
theorem roundingIsHalfUp : Obligations.RoundingIsHalfUp := by
  unfold Obligations.RoundingIsHalfUp
  intro q
  have hfraction : (q.toNat : ℚ) / 256 + 1 / 2 = ((q.toNat + 128 : ℕ) : ℚ) / (256 : ℕ) := by
    push_cast
    ring
  refine ⟨roundHalfUp_toNat q, ?_⟩
  rw [roundHalfUp_toNat, hfraction, Rat.floor_natCast_div_natCast, Int.natCast_ediv]

/-! ENCNEXT on either side of the range check. -/

theorem encodeSignal_of_not_inRange {t : Table} {i : Fin Config.numSignals}
    (hrange : ¬ inRange (t.entry i).startBit (t.entry i).bitLength = true) (e : Engine) : encodeSignal t i e = none := by
  simp only [encodeSignal, encodeNext, writeField_of_not_inRange hrange]

/-- R192: the bare status and no advance. -/
theorem encnextSignal_of_not_inRange {t : Table} {i : Fin Config.numSignals}
    (hrange : ¬ inRange (t.entry i).startBit (t.entry i).bitLength = true) (s : State) :
    encnextSignal t i s = s.answer Status.outOfRange.response := by
  simp only [encnextSignal, encodeSignal_of_not_inRange hrange]

/-- The payload that signal `i` would be encoded to: its rounded current over zeros (44_frame_encoder.md R187, R190). -/
def encodedPayload (t : Table) (i : Fin Config.numSignals) (s : State) : Buffer :=
  bufWrite 0#64 (t.entry i).startBit.toNat (t.entry i).bitLength.toNat (roundHalfUp (s.engine.sweep.get i).current)

/-- The engine with the sweep of signal `i` advanced (44_frame_encoder.md R189). -/
def advanceSignal (i : Fin Config.numSignals) (s : State) : State :=
  { s with engine := { s.engine with sweep := s.engine.sweep.set i (s.engine.sweep.get i).advance } }

theorem encnextSignal_of_inRange {t : Table} {i : Fin Config.numSignals}
    (hrange : inRange (t.entry i).startBit (t.entry i).bitLength = true) (s : State) :
    encnextSignal t i s =
      (advanceSignal i s).answer (encnextResponse ⟨(t.entry i).frameId, 8#4, encodedPayload t i s⟩) := by
  simp only [encnextSignal, encodeSignal_of_inRange hrange]
  rfl

/-- Over a zero buffer nothing stands beside the field: the payload is the field's number alone. -/
theorem encodedPayload_toNat {t : Table} {i : Fin Config.numSignals}
    (hrange : inRange (t.entry i).startBit (t.entry i).bitLength = true) (s : State) :
    (encodedPayload t i s).toNat =
      ((s.engine.sweep.get i).current.toNat + 128) / 256 % 2 ^ (t.entry i).bitLength.toNat *
        2 ^ (t.entry i).startBit.toNat := by
  obtain ⟨-, hlen, hend⟩ := (inRange_iff _ _).mp hrange
  rw [encodedPayload, bufWrite_toNat _ _ _ _ hlen hend, roundHalfUp_toNat]
  simp

theorem encnextResponse_slices (f : Frame) :
    statusOf (encnextResponse f) = 0#4 ∧ (encnextResponse f).extractLsb' 4 4 = f.length ∧
      (encnextResponse f).extractLsb' 8 11 = f.id ∧ (encnextResponse f).extractLsb' 19 45 = 0#45 ∧
      (encnextResponse f).extractLsb' 64 64 = f.payload := by
  refine ⟨extract_low_append _ _, ?_⟩
  simp (disch := decide) only [encnextResponse, BitVec.extractLsb'_append_eq_of_le,
    BitVec.extractLsb'_append_eq_of_add_le, extractLsb'_all, extractLsb'_buffer, and_self]

/-- R189 on numbers: strictly above `max` goes to `min`, and any other sum fits 32 bits. -/
theorem advance_current (w : Sweep) :
    if w.max.toNat < w.current.toNat + w.step.toNat then w.advance.current = w.min
    else w.advance.current.toNat = w.current.toNat + w.step.toNat := by
  obtain ⟨habove, h⟩ | ⟨hsum, h⟩ := advance_cases w
  · rw [if_pos habove, h]
  · have hmax := quantity_lt w.max
    rw [if_neg (not_lt.mpr hsum), h]
    exact BitVec.toNat_add_of_lt (hsum.trans_lt hmax)

theorem signalOf_of_lt {sig : BitVec 2} (h : sig.toNat < Config.numSignals) : signalOf sig = some ⟨sig.toNat, h⟩ := by
  unfold signalOf
  split_ifs with hzero hone htwo
  · subst hzero; rfl
  · subst hone; rfl
  · subst htwo; rfl
  · rw [numSignals_eq] at h
    bv_omega

theorem exec_encnext_of_lt {sig : BitVec 2} (h : sig.toNat < Config.numSignals) (s : State) :
    exec (.encnext sig) s = .next (encnextSignal Config.table ⟨sig.toNat, h⟩ s) := by
  change execEncnext sig s = _
  simp only [execEncnext, signalOf_of_lt h]

/-- Settles O23: this hardware's entries are in range, so the answer is the frame of the current value and the one change
is the sweep's advance. -/
theorem encnextBuildsTheFrameAndAdvances : Obligations.EncnextBuildsTheFrameAndAdvances := by
  unfold Obligations.EncnextBuildsTheFrameAndAdvances
  intro sig h s i d w
  have hrange : inRange d.startBit d.bitLength = true := inRange_entry (by decide) i
  obtain ⟨hstatus, hlength, hid, hzero, hpayload⟩ :=
    encnextResponse_slices ⟨d.frameId, 8#4, encodedPayload Config.table i s⟩
  have hadvanced : (advanceSignal i s).engine.sweep.get i = w.advance := sweeps_get_set _ i _
  refine ⟨(advanceSignal i s).answer _, _, ?_, responded_answer _ _, rfl, rfl, hstatus, hlength, hid, hzero, ?_, rfl,
    fun j hj => sweeps_get_set_of_ne _ i j _ hj, ?_, ?_⟩
  · rw [exec_encnext_of_lt h, encnextSignal_of_inRange hrange]
  · rw [hpayload, encodedPayload_toNat hrange]
  · rw [answer_engine, hadvanced]
    exact sameLimits_advance w
  · rw [answer_engine, hadvanced]
    exact advance_current w

/-- Settles O24: out of range the operation is the bare answer, which changes nothing inside. -/
theorem failedEncodeDoesNotAdvance : Obligations.FailedEncodeDoesNotAdvance := by
  unfold Obligations.FailedEncodeDoesNotAdvance
  intro tbl i s hrange
  rw [encnextSignal_of_not_inRange (mt (inRange_iff _ _).mp hrange)]
  exact ⟨responded_answer s _, sameInside_answer s _⟩

/-! The voltage sweep (10_state.md R34; 44_frame_encoder.md R194): 101 values, 512 apart, the last of them `max`. -/

/-- The `n`-th value of the voltage sweep, for `n` up to 100. -/
def voltageSweepAt (n : Nat) : Sweep := { Config.sweepResetVoltage with current := BitVec.ofNat 32 (307200 + 512 * n) }

theorem voltageSweepAt_current_toNat {n : Nat} (hn : n ≤ 100) :
    (voltageSweepAt n).current.toNat = 307200 + 512 * n :=
  Nat.mod_eq_of_lt (by omega)

/-- The advance goes on to the next value, and from the last one, at `max`, back to `min`. -/
theorem advance_voltageSweepAt {n : Nat} (hn : n ≤ 100) :
    (voltageSweepAt n).advance = voltageSweepAt ((n + 1) % 101) := by
  have hcurrent := voltageSweepAt_current_toNat hn
  have hstep : (voltageSweepAt n).step.toNat = 512 := rfl
  have hmax : (voltageSweepAt n).max.toNat = 358400 := rfl
  obtain ⟨habove, h⟩ | ⟨hsum, h⟩ := advance_cases (voltageSweepAt n)
  · obtain rfl : n = 100 := by omega
    exact h
  · have hnext : (n + 1) % 101 = n + 1 := Nat.mod_eq_of_lt (by omega)
    have hvalue : BitVec.ofNat 32 (307200 + 512 * (n + 1)) = BitVec.ofNat 32 (307200 + 512 * n) + 512#32 := by
      rw [Nat.mul_succ, ← Nat.add_assoc, BitVec.ofNat_add]
    rw [h, hnext]
    simp only [voltageSweepAt, hvalue, Config.sweepResetVoltage]

theorem iterate_advance_voltage (k : Nat) :
    Sweep.advance^[k] Config.sweepResetVoltage = voltageSweepAt (k % 101) := by
  induction k with
  | zero => rfl
  | succ k ih =>
    rw [Function.iterate_succ_apply', ih, advance_voltageSweepAt (by omega), Nat.mod_add_mod]

/-- Settles O25: the orbit of the advance, and the rounding of its value, a multiple of 256. -/
theorem voltageSweepRepeatsAfter101Advances : Obligations.VoltageSweepRepeatsAfter101Advances := by
  unfold Obligations.VoltageSweepRepeatsAfter101Advances
  intro k
  have hindex : k % 101 ≤ 100 := by omega
  rw [iterate_advance_voltage]
  refine ⟨rfl, ?_⟩
  rw [roundHalfUp_toNat, voltageSweepAt_current_toNat hindex]
  omega

end Sys2Proof.Machine.Laws

/-! A requested SEND over its passes (45_channel_transmit.md R213, R215): busy answers below the bound leave it waiting on
its port with one retry more each, and the pass after them ends it. -/

namespace Sys2Proof.Machine.Laws

open Sys2Proof.Laws

/-- `k` steps from `s`, each a pass that met `Busy`, end in `t`: the request waits there with `k` retries made, `rest` is
what the channel has still listed, and nothing else has changed but the response and the `SEND` in progress. -/
structure WaitsAfterBusy (f : Frame) (s : State) (k : Nat) (rest : List TxAnswer) (t : State) : Prop where
  run : Sys2Proof.core.run k s = .next t
  request : t.seqPort.request = s.seqPort.request
  directRequests : t.directRequests = s.directRequests
  resetLine : t.resetLine = s.resetLine
  sendCount : t.sendCount = BitVec.ofNat 16 k
  engine : t.engine = { s.engine with retry := t.engine.retry }
  env : t.env = { s.env with txAnswers := rest }
  trace : t.trace = s.trace ++ List.replicate k (.trySend f .busy)

/-- A listed answer is the one that the pass gets, and the pass takes it off the list. -/
theorem WaitsAfterBusy.txAnswer {f : Frame} {s t : State} {k : Nat} {a : TxAnswer} {rest : List TxAnswer}
    (h : WaitsAfterBusy f s k (a :: rest) t) : t.env.txAnswer = (a, { s.env with txAnswers := rest }) := by
  rw [h.env]
  exact txAnswer_of_listed rfl

theorem sendCount_of_not_sending {s : State} (h : s.sending = false) : s.sendCount = 0#16 := by
  simp [State.sendCount, h]

/-- Below the bound as naturals, the 16-bit count has not met it. -/
theorem ofNat_ne_of_lt_toNat {k : Nat} {m : RetryCount} (h : k < m.toNat) : BitVec.ofNat 16 k ≠ m := by
  rintro rfl
  rw [BitVec.toNat_ofNat] at h
  exact (Nat.mod_le k _).not_gt h

section RequestedSend

variable {id : FrameId} {length : BitVec 4} {p : Buffer} {m : RetryCount} {s t : State} {k : Nat}

theorem step_of_send_request (hreset : s.resetLine = false)
    (hreq : s.seqPort.request = some (encode (.send id length p m))) :
    step s = .next (sendStep ⟨id, length, p⟩ m s) :=
  step_of_decode hreset hreq (decode_encode rfl)

/-- The run to a waiting `SEND` goes on with one pass. -/
theorem WaitsAfterBusy.run_succ {rest : List TxAnswer} (hreset : s.resetLine = false)
    (hreq : s.seqPort.request = some (encode (.send id length p m)))
    (h : WaitsAfterBusy ⟨id, length, p⟩ s k rest t) :
    Sys2Proof.core.run (k + 1) s = .next (sendStep ⟨id, length, p⟩ m t) := by
  have hstep : step t = .next (sendStep ⟨id, length, p⟩ m t) :=
    step_of_send_request (h.resetLine.trans hreset) (h.request.trans hreq)
  rw [run_add k 1 h.run, run_succ_of_next 0 hstep, run_zero]

/-- One busy answer more below the bound: the request waits on, with one retry more. -/
theorem WaitsAfterBusy.again {rest : List TxAnswer} (hreset : s.resetLine = false)
    (hreq : s.seqPort.request = some (encode (.send id length p m))) (hk : k < m.toNat)
    (h : WaitsAfterBusy ⟨id, length, p⟩ s k (.busy :: rest) t) :
    WaitsAfterBusy ⟨id, length, p⟩ s (k + 1) rest (sendStep ⟨id, length, p⟩ m t) := by
  have hbusy : t.env.txAnswer.1 = .busy := by rw [h.txAnswer]
  have hbound : t.sendCount ≠ m := by rw [h.sendCount]; exact ofNat_ne_of_lt_toNat hk
  have hpass := sendStep_of_again ⟨id, length, p⟩ hbusy hbound
  obtain ⟨htrace, henv⟩ := sendStep_trace_env ⟨id, length, p⟩ m t
  exact {
    run := h.run_succ hreset hreq
    request := by rw [hpass]; exact h.request
    directRequests := by rw [hpass]; exact h.directRequests
    resetLine := by rw [hpass]; exact h.resetLine
    sendCount :=
      calc (sendStep ⟨id, length, p⟩ m t).sendCount = t.sendCount + 1#16 := by rw [hpass]; rfl
        _ = BitVec.ofNat 16 (k + 1) := by rw [h.sendCount, BitVec.ofNat_add]
    engine := by rw [hpass]; exact congrArg (fun e : Engine => { e with retry := t.sendCount + 1#16 }) h.engine
    env := by rw [henv, h.txAnswer]
    trace := by rw [htrace, h.trace, hbusy, List.append_assoc, ← List.replicate_succ'] }

/-- Up to as many busy answers as the bound allows retries, the request waits on. -/
theorem waitsAfterBusy_of_busy (hreset : s.resetLine = false) (hsending : s.sending = false)
    (hreq : s.seqPort.request = some (encode (.send id length p m))) (hk : k ≤ m.toNat) (rest : List TxAnswer)
    (hanswers : s.env.txAnswers = List.replicate k .busy ++ rest) :
    ∃ t, WaitsAfterBusy ⟨id, length, p⟩ s k rest t := by
  induction k generalizing rest with
  | zero =>
    have henv : s.env = { s.env with txAnswers := rest } := by rw [← show s.env.txAnswers = rest from hanswers]
    exact ⟨s, {
      run := run_zero s, request := rfl, directRequests := rfl, resetLine := rfl, engine := rfl, env := henv
      sendCount := sendCount_of_not_sending hsending
      trace := (List.append_nil _).symm }⟩
  | succ k ih =>
    have hsplit : s.env.txAnswers = List.replicate k .busy ++ .busy :: rest := by
      rw [hanswers, List.replicate_succ', List.append_assoc, List.singleton_append]
    obtain ⟨t, ht⟩ := ih (by omega) (.busy :: rest) hsplit
    exact ⟨sendStep ⟨id, length, p⟩ m t, ht.again hreset hreq (by omega)⟩

/-- The pass that ends a waiting `SEND`, with whichever status: `k` retries stand in the engine, and one more offer of the
frame in the trace. -/
theorem WaitsAfterBusy.ends {a : TxAnswer} {rest : List TxAnswer} {q : Word128} (hreset : s.resetLine = false)
    (hreq : s.seqPort.request = some (encode (.send id length p m)))
    (h : WaitsAfterBusy ⟨id, length, p⟩ s k (a :: rest) t)
    (hpass : sendStep ⟨id, length, p⟩ m t = ((t.trySend ⟨id, length, p⟩).2.setRetry t.sendCount).answer q) :
    ∃ u, Sys2Proof.core.run (k + 1) s = .next u ∧ Responded s u q ∧
      u.engine = { s.engine with retry := BitVec.ofNat 16 k } ∧ u.env = { s.env with txAnswers := rest } ∧
      u.trace = s.trace ++ (List.replicate k (.trySend ⟨id, length, p⟩ .busy) ++ [.trySend ⟨id, length, p⟩ a]) := by
  obtain ⟨htrace, henv⟩ := sendStep_trace_env ⟨id, length, p⟩ m t
  refine ⟨sendStep ⟨id, length, p⟩ m t, h.run_succ hreset hreq, ?_, ?_, ?_, ?_⟩
  · rw [hpass]
    exact ⟨rfl, rfl, h.directRequests, h.resetLine⟩
  · rw [hpass, ← h.sendCount]
    exact congrArg (fun e : Engine => { e with retry := t.sendCount }) h.engine
  · rw [henv, h.txAnswer]
  · rw [htrace, h.trace, h.txAnswer, List.append_assoc]

end RequestedSend

/-- Settles O30: the busy answers within the bound leave the request waiting; then `Sent`, or one `Busy` at the bound,
ends it. -/
theorem sendEndsWithinItsBound : Obligations.SendEndsWithinItsBound := by
  unfold Obligations.SendEndsWithinItsBound
  intro id length p m s rest hreset hsending hreq
  constructor
  · intro k hk hanswers
    obtain ⟨t, ht⟩ := waitsAfterBusy_of_busy hreset hsending hreq hk (.sent :: rest) hanswers
    have hsent : t.env.txAnswer.1 = .sent := by rw [ht.txAnswer]
    exact ht.ends hreset hreq (sendStep_of_sent _ hsent)
  · intro hanswers
    rw [List.replicate_succ', List.append_assoc, List.singleton_append] at hanswers
    obtain ⟨t, ht⟩ := waitsAfterBusy_of_busy hreset hsending hreq le_rfl (.busy :: rest) hanswers
    have hbusy : t.env.txAnswer.1 = .busy := by rw [ht.txAnswer]
    have hm : BitVec.ofNat 16 m.toNat = m := (BitVec.ofNat_toNat 16 m).trans (BitVec.setWidth_eq m)
    have hend := ht.ends hreset hreq (sendStep_of_saturated _ hbusy (ht.sendCount.trans hm))
    rwa [hm, ← List.replicate_succ'] at hend

end Sys2Proof.Machine.Laws

/-! The poll loop phase by phase (46_sequencer.md R230 to R236): the step of an idle machine in each phase, that under the
invariant there always is one (R248 (c)), and what it changes and leaves. -/

namespace Sys2Proof.Machine.Laws

/-! The step of each phase, after the environment's own step (46_sequencer.md R247). -/

section StepOfPhase

variable {s t : State} (hidle : Idle s)
include hidle

theorem step_samePorts (h : step s = .next t) : SamePorts s t :=
  sequencerStep_samePorts (step_of_idle hidle ▸ h)

theorem step_of_drainCheck (h : s.engine.phase = .drainCheck) :
    step s = .next (drainCheck s.arrive.clearResponse) := by
  simp [step_of_idle hidle, sequencerStep, phaseStep, h]

theorem step_of_drainPop (h : s.engine.phase = .drainPop) {f : Frame} {rest : List Frame}
    (hqueue : s.env.arrive.rxQueue = f :: rest) :
    step s = .next (drainPop Config.params f rest s.arrive.clearResponse) := by
  simp [step_of_idle hidle, sequencerStep, phaseStep, h, hqueue]

theorem step_of_drainPop_empty (h : s.engine.phase = .drainPop) (hqueue : s.env.arrive.rxQueue = []) :
    step s = .fault .rxQueueEmpty := by
  simp [step_of_idle hidle, sequencerStep, phaseStep, h, hqueue]

theorem step_of_tick (h : s.engine.phase = .tick) : step s = .next (tickStep s.arrive.clearResponse) := by
  simp [step_of_idle hidle, sequencerStep, phaseStep, h]

theorem step_of_genEncode (h : s.engine.phase = .genEncode) :
    step s = .next (genEncode Config.params s.arrive.clearResponse) := by
  simp [step_of_idle hidle, sequencerStep, phaseStep, h]

theorem step_of_genSend (h : s.engine.phase = .genSend) :
    step s = .next (genSend Config.params s.arrive.clearResponse) := by
  simp [step_of_idle hidle, sequencerStep, phaseStep, h]

theorem step_of_genNext (h : s.engine.phase = .genNext) : step s = .next (genNext s.arrive.clearResponse) := by
  simp [step_of_idle hidle, sequencerStep, phaseStep, h]

theorem step_of_sleep (h : s.engine.phase = .sleep) : step s = .next (sleepStep s.arrive.clearResponse) := by
  simp [step_of_idle hidle, sequencerStep, phaseStep, h]

end StepOfPhase

/-! Progress (46_sequencer.md R246, R248 (c)). -/

/-- Only `DRAIN_POP` on an empty queue has no next state. -/
theorem phaseStep_next_or_empty (p : Params) (s : State) :
    (∃ t, phaseStep p s = .next t) ∨ (s.engine.phase = .drainPop ∧ s.env.rxQueue = []) := by
  unfold phaseStep
  cases s.engine.phase with
  | drainPop =>
    cases s.env.rxQueue with
    | nil => exact .inr ⟨rfl, rfl⟩
    | cons f rest => exact .inl ⟨_, rfl⟩
  | _ => exact .inl ⟨_, rfl⟩

/-- Arrivals go to the end of the queue, so a frame that was there still is. -/
theorem arrive_rxQueue_ne_nil {e : Env} (h : e.rxQueue ≠ []) : e.arrive.rxQueue ≠ [] := by
  obtain ⟨fs, hqueue, -⟩ := env_arrive_spec e
  rw [hqueue]
  exact List.append_ne_nil_of_left_ne_nil h fs

/-- The invariant excludes the only state that has no step. -/
theorem step_next_of_machineInv {s : State} (h : MachineInv s) : ∃ t, step s = .next t := by
  obtain ⟨-, hqueued, hnone, -⟩ := h
  obtain ⟨-, hs⟩ | ⟨-, w, hreq, -⟩ | ⟨-, -, hs⟩ := step_cases s
  · exact ⟨_, hs⟩
  · simp [hnone] at hreq
  · rw [hs]
    obtain hnext | ⟨hphase, hempty⟩ := phaseStep_next_or_empty Config.params s.arrive.clearResponse
    · exact hnext
    · exact absurd hempty (arrive_rxQueue_ne_nil (hqueued hphase))

/-- Settles O48, by induction on the number of steps: the invariant gives the next step, which keeps it (O47). -/
theorem machineNeverStopsUnderTheInvariant : Obligations.MachineNeverStopsUnderTheInvariant := by
  unfold Obligations.MachineNeverStopsUnderTheInvariant
  intro s hinv k
  induction k generalizing s with
  | zero => exact ⟨s, run_zero s, hinv⟩
  | succ k ih =>
    obtain ⟨u, hu⟩ := step_next_of_machineInv hinv
    rw [run_succ_of_next k hu]
    exact ih u (everyStepKeepsTheInvariant s u hinv hu)

/-! Draining the queue: `DRAIN_CHECK` and `DRAIN_POP`. -/

/-- Settles O31: the logged answer decides the phase, and below 256 frames it is the queue's length. -/
theorem drainCheckAsksTheFillLevel : Obligations.DrainCheckAsksTheFillLevel := by
  unfold Obligations.DrainCheckAsksTheFillLevel
  intro s hidle hphase
  have hstep := step_of_drainCheck hidle hphase
  obtain ⟨hqueue, -, -, hlength, -⟩ := env_fillLevel_spec s.env.arrive
  refine ⟨s.env.arrive.fillLevel.1, _, hstep, step_samePorts hidle hstep, rfl, ?_, hqueue, hlength⟩
  by_cases hn : s.env.arrive.fillLevel.1 = 0#8
  · simp [drainCheck, State.setPhase, hn]
  · have hpos : 0 < s.env.arrive.fillLevel.1.toNat :=
      Nat.pos_of_ne_zero fun hzero => hn (BitVec.eq_of_toNat_eq hzero)
    simp [drainCheck, State.setPhase, hn, hpos]

/-- Settles O32: the phase emits `decodeWord` of the popped frame, which is what a requested DECODE answers. -/
theorem drainPopDecodesAndEmits : Obligations.DrainPopDecodesAndEmits := by
  unfold Obligations.DrainPopDecodesAndEmits
  intro s f rest hidle hphase hqueue
  have hstep := step_of_drainPop hidle hphase hqueue
  refine ⟨decodeWord Config.table f.id f.payload, _, hstep, step_samePorts hidle hstep, ?_, rfl, rfl, fun u => ?_⟩
  · exact List.append_assoc _ _ _
  · exact ⟨_, exec_of_pureResponse (pureResponse_decode f.id f.length f.payload) u, responded_answer u _⟩

/-- Settles O33: the phase has no other branch for an empty queue. -/
theorem emptyQueueLeavesDrainPopStuck : Obligations.EmptyQueueLeavesDrainPopStuck := by
  unfold Obligations.EmptyQueueLeavesDrainPopStuck
  exact fun _ => step_of_drainPop_empty

/-! Counting cycles and signals: `TICK`, `GEN_NEXT` and `SLEEP`. -/

/-- Settles O34: `tick` is below 10, so it either has room for one more or is 9. -/
theorem tickStartsAGeneratePhaseEveryTenthCycle : Obligations.TickStartsAGeneratePhaseEveryTenthCycle := by
  unfold Obligations.TickStartsAGeneratePhaseEveryTenthCycle
  intro s hidle hphase
  have hstep := step_of_tick hidle hphase
  have hports := step_samePorts hidle hstep
  by_cases hlt : s.engine.tick.val + 1 < Config.genPeriod
  · rw [tickStep_of_lt (s := s.arrive.clearResponse) hlt] at hstep hports
    refine ⟨_, hstep, hports, rfl, rfl, rfl, ?_⟩
    rw [if_neg hlt.ne]
    exact ⟨rfl, rfl, rfl⟩
  · rw [tickStep_of_not_lt (s := s.arrive.clearResponse) hlt] at hstep hports
    have hten : s.engine.tick.val + 1 = 10 := le_antisymm s.engine.tick.isLt (not_lt.mp hlt)
    refine ⟨_, hstep, hports, rfl, rfl, rfl, ?_⟩
    rw [if_pos hten]
    exact ⟨rfl, rfl, rfl⟩

/-- Settles O37: `sigIdx` is below 3, so it either has a successor or is 2. -/
theorem genNextWalksTheSignalsInOrder : Obligations.GenNextWalksTheSignalsInOrder := by
  unfold Obligations.GenNextWalksTheSignalsInOrder
  intro s hidle hphase
  have hstep := step_of_genNext hidle hphase
  have hports := step_samePorts hidle hstep
  by_cases hlt : s.engine.sigIdx.val + 1 < Config.numSignals
  · rw [genNext_of_lt (s := s.arrive.clearResponse) hlt] at hstep hports
    have hnotLast : s.engine.sigIdx.val ≠ 2 := fun h => by simp [h] at hlt
    refine ⟨_, hstep, hports, rfl, rfl, rfl, ?_⟩
    rw [if_neg hnotLast]
    exact ⟨rfl, rfl⟩
  · rw [genNext_of_not_lt (s := s.arrive.clearResponse) hlt] at hstep hports
    have hlast : s.engine.sigIdx.val = 2 := Nat.succ.inj (le_antisymm s.engine.sigIdx.isLt (not_lt.mp hlt))
    refine ⟨_, hstep, hports, rfl, rfl, rfl, ?_⟩
    rw [if_pos hlast]
    exact ⟨rfl, rfl⟩

/-- Settles O38: the phase logs the sleep and sets the phase. -/
theorem sleepReturnsToDrainCheck : Obligations.SleepReturnsToDrainCheck := by
  unfold Obligations.SleepReturnsToDrainCheck
  intro s hidle hphase
  have hstep := step_of_sleep hidle hphase
  exact ⟨_, hstep, step_samePorts hidle hstep, rfl, rfl, rfl⟩

/-! Encoding: the two ends of `GEN_ENCODE` (46_sequencer.md R233). -/

theorem genEncode_of_some {p : Params} {s : State} {f : TxFrame} {e : Engine}
    (h : encodeSignal p.table s.engine.sigIdx s.engine = some (f, e)) :
    genEncode p s = { s with
      engine := { s.engine with sweep := e.sweep, txFrame := f, retry := 0#16, phase := .genSend } } := by
  obtain ⟨-, -, rfl⟩ := encodeSignal_eq_some h
  simp only [genEncode, h]

theorem genEncode_of_none {p : Params} {s : State}
    (h : encodeSignal p.table s.engine.sigIdx s.engine = none) : genEncode p s = s.setPhase .genNext := by
  simp only [genEncode, h]

/-- Settles O35: either end of the phase is one update of the engine. -/
theorem genEncodeLoadsTheFrame : Obligations.GenEncodeLoadsTheFrame := by
  unfold Obligations.GenEncodeLoadsTheFrame
  refine ⟨fun s => step_of_genEncode, fun p s => ?_⟩
  cases h : encodeSignal p.table s.engine.sigIdx s.engine with
  | none =>
    rw [genEncode_of_none h]
    exact ⟨rfl, rfl, rfl, rfl, rfl, rfl, fun _ _ hsome => (Option.some_ne_none _ hsome.symm).elim, fun _ => rfl⟩
  | some r =>
    obtain ⟨f, e⟩ := r
    rw [genEncode_of_some h]
    refine ⟨rfl, rfl, rfl, rfl, rfl, rfl, fun f' e' hsome => ?_, fun hnone => nomatch hnone⟩
    cases hsome
    rfl

/-! Sending: one pass of `GEN_SEND` (46_sequencer.md R234). -/

/-- Whatever its end, a pass offers the kept frame once and takes one answer. -/
theorem genSend_trace_env (p : Params) (s : State) :
    (genSend p s).trace = s.trace ++ [.trySend s.engine.txFrame.frame s.env.txAnswer.1] ∧
      (genSend p s).env = s.env.txAnswer.2 := by
  unfold genSend
  cases sendPass (s.trySend s.engine.txFrame.frame).1 s.engine.retry p.maxRetry <;> exact ⟨rfl, rfl⟩

/-- `Sent` and `Busy` at the bound end the signal, any other `Busy` counts a retry. -/
theorem genSend_engine (p : Params) (s : State) :
    (genSend p s).engine =
      if s.env.txAnswer.1 = .sent then { s.engine with phase := .genNext }
      else if s.engine.retry = p.maxRetry then { s.engine with phase := .genNext }
      else { s.engine with retry := s.engine.retry + 1#16 } := by
  unfold genSend
  rw [trySend_answer]
  obtain ⟨ha, hpass⟩ | ⟨ha, hbound, hpass⟩ | ⟨ha, hbound, hpass⟩ :=
    sendPass_cases s.env.txAnswer.1 s.engine.retry p.maxRetry
  · rw [hpass, if_pos ha]
    rfl
  · rw [hpass, ha, if_neg (by decide), if_pos hbound]
    rfl
  · rw [hpass, ha, if_neg (by decide), if_neg hbound]
    rfl

/-- Settles O36: arrivals leave the listed answers, of which the one pass takes the first. -/
theorem genSendMakesOneAttempt : Obligations.GenSendMakesOneAttempt := by
  unfold Obligations.GenSendMakesOneAttempt
  intro s hidle hphase
  have hstep := step_of_genSend hidle hphase
  obtain ⟨htrace, henv⟩ := genSend_trace_env Config.params s.arrive.clearResponse
  obtain ⟨fs, -, hlisted, -⟩ := env_arrive_spec s.env
  obtain ⟨hqueue, -, hanswer⟩ := env_txAnswer_spec s.env.arrive
  refine ⟨_, s.env.arrive.txAnswer.1, hstep, step_samePorts hidle hstep, htrace, fun b rest hanswers => ?_, ?_,
    genSend_engine Config.params s.arrive.clearResponse⟩
  · rw [henv]
    exact hanswer b rest (hlisted.trans hanswers)
  · rw [henv]
    exact hqueue

end Sys2Proof.Machine.Laws

/-! The trace (46_sequencer.md R238, R242, R243): what a phase, an operation requested on the SEQ port, and so a step may
add to it. -/

namespace Sys2Proof.Machine.Laws

/-- The events that the phase of this engine may log in one step. -/
inductive PhaseLogs (e : Engine) : List Event → Prop
  | nothing : PhaseLogs e []
  | fillLevel (h : e.phase = .drainCheck) (n : FillLevel) : PhaseLogs e [.fillLevel n]
  | popEmit (h : e.phase = .drainPop) (f : Frame) (rec : Word128) : PhaseLogs e [.pop f, .emit rec]
  | trySend (h : e.phase = .genSend) (a : TxAnswer) : PhaseLogs e [.trySend e.txFrame.frame a]
  | sleep (h : e.phase = .sleep) : PhaseLogs e [.sleep 10#16]

theorem tickStep_trace (s : State) : (tickStep s).trace = s.trace := by
  unfold tickStep
  split <;> rfl

theorem genEncode_trace (p : Params) (s : State) : (genEncode p s).trace = s.trace := by
  unfold genEncode
  split <;> rfl

theorem genNext_trace (s : State) : (genNext s).trace = s.trace := by
  unfold genNext
  split <;> rfl

theorem phaseStep_trace {p : Params} {s t : State} (h : phaseStep p s = .next t) :
    ∃ es, PhaseLogs s.engine es ∧ t.trace = s.trace ++ es := by
  obtain ⟨hphase, ht⟩ | ⟨hphase, f, rest, -, ht⟩ | ⟨-, -, ht⟩ | ⟨-, ht⟩ | ⟨-, ht⟩ | ⟨hphase, ht⟩ | ⟨-, ht⟩ |
    ⟨hphase, ht⟩ := phaseStep_cases p s <;> rw [ht] at h <;> cases h
  · exact ⟨_, .fillLevel hphase _, rfl⟩
  · exact ⟨_, .popEmit hphase f _, List.append_assoc _ _ _⟩
  · exact ⟨[], .nothing, by rw [tickStep_trace, List.append_nil]⟩
  · exact ⟨[], .nothing, by rw [genEncode_trace, List.append_nil]⟩
  · exact ⟨_, .trySend hphase _, (genSend_trace_env p s).1⟩
  · exact ⟨[], .nothing, by rw [genNext_trace, List.append_nil]⟩
  · exact ⟨_, .sleep hphase, rfl⟩

theorem encnextSignal_trace (t : Table) (i : Fin Config.numSignals) (s : State) :
    (encnextSignal t i s).trace = s.trace := by
  unfold encnextSignal
  split <;> rfl

theorem execEncnext_trace {sig : BitVec 2} {s t : State} (h : execEncnext sig s = .next t) : t.trace = s.trace := by
  unfold execEncnext at h
  split at h <;> cases h
  · rfl
  · exact encnextSignal_trace _ _ _

/-- Of the operations only a `SEND` calls the environment, with its operand frame (45_channel_transmit.md R211). -/
theorem exec_trace {i : Instr} {s t : State} (h : exec i s = .next t) :
    t.trace = s.trace ∨ ∃ id length p m a, i = .send id length p m ∧ t.trace = s.trace ++ [.trySend ⟨id, length, p⟩ a] := by
  cases hq : pureResponse i with
  | some q =>
    rw [exec_of_pureResponse hq] at h
    cases h
    exact .inl rfl
  | none =>
    cases i with
    | encnext sig => exact .inl (execEncnext_trace h)
    | send id length p m =>
      cases h
      exact .inr ⟨id, length, p, m, _, rfl, (sendStep_trace_env _ m s).1⟩
    | _ => cases hq

theorem serve_trace {w : Word128} {s t : State} (h : serve w s = .next t) :
    t.trace = s.trace ∨ ∃ id length p m a,
      decode w = .ok (.send id length p m) ∧ t.trace = s.trace ++ [.trySend ⟨id, length, p⟩ a] := by
  obtain ⟨i, hd, hs⟩ | ⟨e, -, hs⟩ := serve_cases w s
  · obtain hsame | ⟨id, length, p, m, a, rfl, hadd⟩ := exec_trace (hs ▸ h)
    · exact .inl hsame
    · exact .inr ⟨id, length, p, m, a, hd, hadd⟩
  · rw [hs] at h
    cases h
    exact .inl rfl

/-- Settles O40: a reset logs nothing, a request at most its SEND's offer, and the sequencer what its phase may log. -/
theorem traceGrowsOnlyByThePhasesEvents : Obligations.TraceGrowsOnlyByThePhasesEvents := by
  unfold Obligations.TraceGrowsOnlyByThePhasesEvents
  intro s t h
  obtain ⟨-, hs⟩ | ⟨hreset, w, hreq, hs⟩ | ⟨hreset, hreq, hs⟩ := step_cases s <;> rw [hs] at h
  · cases h
    exact ⟨[], (List.append_nil _).symm, .inl rfl⟩
  · obtain hsame | ⟨id, length, p, m, a, hd, hadd⟩ := serve_trace h
    · exact ⟨[], by rw [hsame, List.append_nil], .inl rfl⟩
    · exact ⟨_, hadd, .inr (.inr (.inr (.inr (.inr ⟨hreset, w, id, length, p, m, a, hreq, hd, rfl⟩))))⟩
  · have hidle : Idle s := ⟨hreset, hreq⟩
    obtain ⟨es, hlogs, htrace⟩ := phaseStep_trace h
    refine ⟨es, htrace, ?_⟩
    cases hlogs with
    | nothing => exact .inl rfl
    | fillLevel hphase n => exact .inr (.inl ⟨hidle, hphase, n, rfl⟩)
    | popEmit hphase f rec => exact .inr (.inr (.inl ⟨hidle, hphase, f, rec, rfl⟩))
    | trySend hphase a => exact .inr (.inr (.inr (.inl ⟨hidle, hphase, a, rfl⟩)))
    | sleep hphase => exact .inr (.inr (.inr (.inr (.inl ⟨hidle, hphase, rfl⟩))))

end Sys2Proof.Machine.Laws

/-! The generate phase (46_sequencer.md R248 (a), R249): each signal is encoded once, sent within its bound and left, and
the third leads to `SLEEP`. -/

namespace Sys2Proof.Machine.Laws

open Sys2Proof.Laws

/-- At least one and at most `k` steps lead from `s` to `t`, with at most `n` calls of `env.trySend` and no other event;
ports and cycle count are as before. -/
structure Generates (k n : Nat) (s t : State) : Prop where
  run   : ∃ j ≤ k, Sys2Proof.core.run j s = .next t
  trace : ∃ es, t.trace = s.trace ++ es ∧ es.length ≤ n ∧ ∀ e ∈ es, IsTrySend e
  ports : SamePorts s t
  tick  : t.engine.tick = s.engine.tick

theorem samePorts_trans {s t u : State} (hst : SamePorts s t) (htu : SamePorts t u) : SamePorts s u := by
  obtain ⟨hport, hsending, hdirect, hreset⟩ := hst
  obtain ⟨hport', hsending', hdirect', hreset'⟩ := htu
  exact ⟨by rw [hport', hport], hsending'.trans hsending, hdirect'.trans hdirect, hreset'.trans hreset⟩

theorem idle_of_samePorts {s t : State} (hidle : Idle s) (h : SamePorts s t) : Idle t := by
  obtain ⟨hreset, hreq⟩ := hidle
  obtain ⟨hport, -, -, hreset'⟩ := h
  exact ⟨hreset'.trans hreset, by rw [hport, hreq]⟩

section Generates

variable {k k' n n' : Nat} {s t u : State}

theorem Generates.idle (h : Generates k n s t) (hidle : Idle s) : Idle t := idle_of_samePorts hidle h.ports

theorem Generates.trans (hst : Generates k n s t) (htu : Generates k' n' t u) :
    Generates (k + k') (n + n') s u where
  run := by
    obtain ⟨j, hj, hrun⟩ := hst.run
    obtain ⟨j', hj', hrun'⟩ := htu.run
    exact ⟨j + j', Nat.add_le_add hj hj', (run_add j j' hrun).trans hrun'⟩
  trace := by
    obtain ⟨es, htrace, hlen, hsends⟩ := hst.trace
    obtain ⟨es', htrace', hlen', hsends'⟩ := htu.trace
    refine ⟨es ++ es', by rw [htrace', htrace, List.append_assoc], ?_, fun e he => ?_⟩
    · rw [List.length_append]
      exact Nat.add_le_add hlen hlen'
    · exact (List.mem_append.mp he).elim (hsends e) (hsends' e)
  ports := samePorts_trans hst.ports htu.ports
  tick := htu.tick.trans hst.tick

theorem Generates.mono (h : Generates k n s t) (hk : k ≤ k') (hn : n ≤ n') : Generates k' n' s t where
  run := h.run.imp fun _ ⟨hj, hrun⟩ => ⟨hj.trans hk, hrun⟩
  trace := h.trace.imp fun _ ⟨htrace, hlen, hsends⟩ => ⟨htrace, hlen.trans hn, hsends⟩
  ports := h.ports
  tick := h.tick

/-- A step that logs nothing. -/
theorem generates_of_silent_step (hidle : Idle s) (h : step s = .next t) (htrace : t.trace = s.trace)
    (htick : t.engine.tick = s.engine.tick) : Generates 1 0 s t where
  run := ⟨1, le_rfl, run_succ_of_next 0 h⟩
  trace := ⟨[], by rw [htrace, List.append_nil], le_rfl, by simp⟩
  ports := step_samePorts hidle h
  tick := htick

/-- A step that offers one frame. -/
theorem generates_of_trySend_step (hidle : Idle s) (h : step s = .next t) {f : Frame} {a : TxAnswer}
    (htrace : t.trace = s.trace ++ [.trySend f a]) (htick : t.engine.tick = s.engine.tick) : Generates 1 1 s t where
  run := ⟨1, le_rfl, run_succ_of_next 0 h⟩
  trace := ⟨_, htrace, le_rfl, fun _ he => ⟨f, a, List.mem_singleton.mp he⟩⟩
  ports := step_samePorts hidle h
  tick := htick

end Generates

/-! One signal: `GEN_ENCODE`, the passes of `GEN_SEND`, `GEN_NEXT`. -/

/-- This hardware's table is well-formed, so its `GEN_ENCODE` always ends with status `OK` (41_descriptor_lookup.md R145). -/
theorem generates_genEncode {s : State} (hidle : Idle s) (hphase : s.engine.phase = .genEncode) :
    ∃ t, Generates 1 0 s t ∧ t.engine.phase = .genSend ∧ t.engine.retry = 0#16 ∧
      t.engine.sigIdx = s.engine.sigIdx ∧
      t.engine.sweep = s.engine.sweep.set s.engine.sigIdx (s.engine.sweep.get s.engine.sigIdx).advance := by
  have hstep := step_of_genEncode hidle hphase
  have henc := encodeSignal_of_inRange (inRange_entry (t := Config.table) (by decide) s.engine.sigIdx) s.engine
  rw [genEncode_of_some (p := Config.params) (s := s.arrive.clearResponse) henc] at hstep
  exact ⟨_, generates_of_silent_step hidle hstep rfl rfl, rfl, rfl, rfl, rfl⟩

/-- One pass offers the kept frame; it ends the signal or, below the bound, counts one retry. -/
theorem generates_genSend_pass {s : State} (hidle : Idle s) (hphase : s.engine.phase = .genSend) :
    ∃ t, Generates 1 1 s t ∧
      (t.engine = { s.engine with phase := .genNext } ∨
        (s.engine.retry ≠ Config.maxRetry ∧ t.engine = { s.engine with retry := s.engine.retry + 1#16 })) := by
  obtain ⟨t, a, hstep, -, htrace, -, -, hengine⟩ := genSendMakesOneAttempt s hidle hphase
  have htick : t.engine.tick = s.engine.tick := by
    rw [hengine]
    split_ifs <;> rfl
  refine ⟨t, generates_of_trySend_step hidle hstep htrace htick, ?_⟩
  split_ifs at hengine with hsent hbound
  · exact .inl hengine
  · exact .inl hengine
  · exact .inr ⟨hbound, hengine⟩

/-- With `r` retries left the frame takes at most `r + 1` passes, by induction on `r`: a pass that does not end the signal
leaves one retry fewer. -/
theorem generates_genSend (r : Nat) {s : State} (hidle : Idle s) (hphase : s.engine.phase = .genSend)
    (hleft : s.engine.retry.toNat + r = Config.maxRetry.toNat) :
    ∃ t, Generates (r + 1) (r + 1) s t ∧ t.engine.phase = .genNext ∧ t.engine.sigIdx = s.engine.sigIdx ∧
      t.engine.sweep = s.engine.sweep := by
  induction r using Nat.strong_induction_on generalizing s with
  | _ r ih =>
    obtain ⟨t, hgen, hends | ⟨hbelow, hagain⟩⟩ := generates_genSend_pass hidle hphase
    · exact ⟨t, hgen.mono (by omega) (by omega), by rw [hends], by rw [hends], by rw [hends]⟩
    · have hmax := retryCount_lt Config.maxRetry
      have hne : s.engine.retry.toNat ≠ Config.maxRetry.toNat := fun heq => hbelow (BitVec.eq_of_toNat_eq heq)
      obtain ⟨r', rfl⟩ : ∃ r', r = r' + 1 := Nat.exists_eq_succ_of_ne_zero (by omega)
      have hretry : (s.engine.retry + 1#16).toNat = s.engine.retry.toNat + 1 :=
        BitVec.toNat_add_of_lt (show s.engine.retry.toNat + 1 < 2 ^ 16 by omega)
      obtain ⟨u, hrest, hnext, hsig, hsweep⟩ :=
        ih r' (Nat.lt_succ_self r') (hgen.idle hidle) (by rw [hagain]; exact hphase) (by rw [hagain, hretry]; omega)
      rw [hagain] at hsig hsweep
      exact ⟨u, (hgen.trans hrest).mono (by omega) (by omega), hnext, hsig, hsweep⟩

/-- One signal, from `GEN_ENCODE` to the end of `GEN_NEXT`: its sweep is advanced once, and the next signal or `SLEEP`
follows. -/
theorem generates_signal {s : State} (hidle : Idle s) (hphase : s.engine.phase = .genEncode)
    {i : Fin Config.numSignals} (hi : s.engine.sigIdx = i) :
    ∃ t, Generates (Config.maxRetry.toNat + 3) (Config.maxRetry.toNat + 1) s t ∧
      t.engine.sweep = s.engine.sweep.set i (s.engine.sweep.get i).advance ∧
      if i.val = 2 then t.engine.phase = .sleep
      else t.engine.phase = .genEncode ∧ t.engine.sigIdx.val = i.val + 1 := by
  subst hi
  obtain ⟨t, hencode, hsend, hretry, hsig, hsweep⟩ := generates_genEncode hidle hphase
  have hleft : t.engine.retry.toNat + Config.maxRetry.toNat = Config.maxRetry.toNat := by
    rw [hretry]
    exact Nat.zero_add _
  obtain ⟨u, hpasses, hnext, hsig', hsweep'⟩ := generates_genSend _ (hencode.idle hidle) hsend hleft
  have hgen := hencode.trans hpasses
  have huidle := hgen.idle hidle
  obtain ⟨v, hstep, -, htrace, -, hengine, hwalk⟩ := genNextWalksTheSignalsInOrder u huidle hnext
  have hleave : Generates 1 0 u v := generates_of_silent_step huidle hstep htrace (by rw [hengine])
  refine ⟨v, (hgen.trans hleave).mono (by omega) (by omega), ?_, ?_⟩
  · rw [hengine, ← hsweep, ← hsweep']
  · rw [hsig', hsig] at hwalk
    split_ifs at hwalk ⊢ with hlast
    · obtain ⟨-, hsleep⟩ := hwalk
      exact hsleep
    · obtain ⟨hsucc, hagain⟩ := hwalk
      exact ⟨hagain, hsucc⟩

/-- Advancing the three sweeps one after the other advances each once. -/
theorem get_set_advance_all (w : Sweeps) (i : Fin Config.numSignals) :
    let w₀ := w.set 0 (w.get 0).advance
    let w₁ := w₀.set 1 (w₀.get 1).advance
    (w₁.set 2 (w₁.get 2).advance).get i = (w.get i).advance := by
  match i with
  | 0 => rfl
  | 1 => rfl
  | 2 => rfl

/-- Settles O39: the three signals one after the other, each within a third of the bound. -/
theorem generatePhaseEndsAndAdvancesEachSweepOnce : Obligations.GeneratePhaseEndsAndAdvancesEachSweepOnce := by
  unfold Obligations.GeneratePhaseEndsAndAdvancesEachSweepOnce
  intro s hidle hphase hzero
  obtain ⟨t, hvoltage, hsweep₀, hnext₀⟩ := generates_signal (i := 0) hidle hphase (Fin.ext hzero)
  rw [if_neg (by decide)] at hnext₀
  obtain ⟨hphase₁, hone⟩ := hnext₀
  obtain ⟨u, hcurrent, hsweep₁, hnext₁⟩ := generates_signal (i := 1) (hvoltage.idle hidle) hphase₁ (Fin.ext hone)
  rw [if_neg (by decide)] at hnext₁
  obtain ⟨hphase₂, htwo⟩ := hnext₁
  have hgen := hvoltage.trans hcurrent
  obtain ⟨v, htemperature, hsweep₂, hsleep⟩ := generates_signal (i := 2) (hgen.idle hidle) hphase₂ (Fin.ext htwo)
  rw [if_pos (by decide)] at hsleep
  obtain ⟨⟨k, hk, hrun⟩, ⟨es, htrace, hlen, hsends⟩, hports, htick⟩ := hgen.trans htemperature
  refine ⟨k, v, es, hrun, by omega, hsleep, htick, hports, htrace, by omega, hsends, fun i => ?_⟩
  rw [hsweep₂, hsweep₁, hsweep₀]
  exact get_set_advance_all s.engine.sweep i

end Sys2Proof.Machine.Laws

/-! Statuses and contexts (60_exceptions.md R260, R267, R275, R276): the status that each response word carries, and so
every answer in either context; and the reset event (70_reset_and_hazards.md R300 to R302). -/

namespace Sys2Proof.Machine.Laws

open Sys2Proof.Laws

/-! The statuses of response words. -/

theorem status_code_le_five (st : Status) : st.code.toNat ≤ 5 := by cases st <;> decide

theorem status_code_eq_five_iff (st : Status) : st.code = 5#4 ↔ st = .notPermitted := by cases st <;> decide

theorem statusOf_response (st : Status) : statusOf st.response = st.code := extract_low_append _ _

/-- The word carries one of the six statuses, and not the one of an operation that its context refuses. -/
def RunStatus (q : Word128) : Prop := ∃ st : Status, st ≠ .notPermitted ∧ statusOf q = st.code

theorem RunStatus.le_five {q : Word128} (h : RunStatus q) : (statusOf q).toNat ≤ 5 := by
  obtain ⟨st, -, hcode⟩ := h
  exact hcode ▸ status_code_le_five st

theorem RunStatus.ne_five {q : Word128} (h : RunStatus q) : statusOf q ≠ 5#4 := by
  obtain ⟨st, hst, hcode⟩ := h
  exact hcode ▸ mt (status_code_eq_five_iff st).mp hst

theorem runStatus_response {st : Status} (h : st ≠ .notPermitted) : RunStatus st.response :=
  ⟨st, h, statusOf_response st⟩

theorem runStatus_wrfldWord (b : Buffer) (start : StartBit) (len : BitLength) (v : RawCount) :
    RunStatus (wrfldWord b start len v) := by
  by_cases h : inRange start len = true
  · rw [wrfldWord_of_inRange h]
    exact ⟨.ok, by decide, extract_low_append _ _⟩
  · rw [wrfldWord_of_not_inRange h]
    exact ⟨.outOfRange, by decide, extract_low_append _ _⟩

theorem runStatus_rdfldWord (b : Buffer) (start : StartBit) (len : BitLength) : RunStatus (rdfldWord b start len) := by
  by_cases h : inRange start len = true
  · rw [rdfldWord_of_inRange h]
    exact ⟨.ok, by decide, extract_low_append _ _⟩
  · rw [rdfldWord_of_not_inRange h]
    exact runStatus_response (by decide)

theorem runStatus_lookupWord (t : Table) (id : FrameId) : RunStatus (lookupWord t id) := by
  cases h : lookupSignal t id with
  | some i =>
    rw [lookupWord_of_some h]
    exact ⟨.ok, by decide, extract_low_append _ _⟩
  | none =>
    rw [lookupWord_of_none h]
    exact runStatus_response (by decide)

theorem runStatus_classifyResponse (warning : Bool) : RunStatus (classifyResponse warning) :=
  ⟨.ok, by decide, extract_low_append _ _⟩

theorem runStatus_decodeWord (t : Table) (id : FrameId) (p : Buffer) : RunStatus (decodeWord t id p) := by
  cases h : lookupSignal t id with
  | some i =>
    by_cases hrange : inRange (t.entry i).startBit (t.entry i).bitLength = true
    · rw [decodeWord_of_inRange h hrange]
      exact ⟨.ok, by decide, extract_low_append _ _⟩
    · rw [decodeWord_of_not_inRange h hrange]
      exact ⟨.outOfRange, by decide, extract_low_append _ _⟩
  | none =>
    rw [decodeWord_of_unknown h]
    exact ⟨.unknownSignal, by decide, extract_low_append _ _⟩

theorem runStatus_encnextResponse (f : Frame) : RunStatus (encnextResponse f) :=
  ⟨.ok, by decide, extract_low_append _ _⟩

theorem runStatus_of_pureResponse {i : Instr} {q : Word128} (hq : pureResponse i = some q) : RunStatus q := by
  cases i with
  | wrfld => cases hq; exact runStatus_wrfldWord ..
  | rdfld => cases hq; exact runStatus_rdfldWord ..
  | lookup => cases hq; exact runStatus_lookupWord ..
  | classify => cases hq; exact runStatus_classifyResponse _
  | decode => cases hq; exact runStatus_decodeWord ..
  | encnext => cases hq
  | send => cases hq

/-! Context SEQ: every operation is run. -/

/-- If `t` answers the request of `s`, it does so with the status of an operation that was run. A `SEND` between two of
its passes has answered nothing. -/
def AnswersAsRun (s t : State) : Prop := ∀ q, Responded s t q → RunStatus q

/-- The answer may be given in a state whose engine and environment the operation has changed. -/
theorem answersAsRun_answer (s u : State) {q : Word128} (hq : RunStatus q) : AnswersAsRun s (u.answer q) := by
  rintro p ⟨hport, -⟩
  obtain rfl : q = p := by simpa using hport
  exact hq

theorem answersAsRun_of_sending (s : State) {t : State} (h : t.sending = true) : AnswersAsRun s t := by
  rintro q ⟨-, hended, -⟩
  simp [h] at hended

theorem encnextSignal_answersAsRun (t : Table) (i : Fin Config.numSignals) (s : State) :
    AnswersAsRun s (encnextSignal t i s) := by
  by_cases hrange : inRange (t.entry i).startBit (t.entry i).bitLength = true
  · rw [encnextSignal_of_inRange hrange]
    exact answersAsRun_answer s _ (runStatus_encnextResponse _)
  · rw [encnextSignal_of_not_inRange hrange]
    exact answersAsRun_answer s _ (runStatus_response (by decide))

/-- ENCNEXT of the illegal index 3 too has an answer, `ILLEGAL_OP`. -/
theorem execEncnext_answersAsRun (sig : BitVec 2) (s : State) :
    ∃ t, execEncnext sig s = .next t ∧ AnswersAsRun s t := by
  unfold execEncnext
  cases signalOf sig with
  | none => exact ⟨_, rfl, answersAsRun_answer s _ (runStatus_response (by decide))⟩
  | some i => exact ⟨_, rfl, encnextSignal_answersAsRun _ i s⟩

theorem sendStep_answersAsRun (f : Frame) (m : RetryCount) (s : State) : AnswersAsRun s (sendStep f m s) := by
  cases hanswer : s.env.txAnswer.1 with
  | sent =>
    rw [sendStep_of_sent f hanswer]
    exact answersAsRun_answer s _ (runStatus_response (by decide))
  | busy =>
    by_cases hbound : s.sendCount = m
    · rw [sendStep_of_saturated f hanswer hbound]
      exact answersAsRun_answer s _ (runStatus_response (by decide))
    · rw [sendStep_of_again f hanswer hbound]
      exact answersAsRun_of_sending s rfl

/-- Every operation has a next state, and none is refused. -/
theorem exec_answersAsRun (i : Instr) (s : State) : ∃ t, exec i s = .next t ∧ AnswersAsRun s t := by
  cases hq : pureResponse i with
  | some q => exact ⟨_, exec_of_pureResponse hq s, answersAsRun_answer s s (runStatus_of_pureResponse hq)⟩
  | none =>
    cases i with
    | encnext sig => exact execEncnext_answersAsRun sig s
    | send id length p m => exact ⟨_, rfl, sendStep_answersAsRun ⟨id, length, p⟩ m s⟩
    | _ => cases hq

/-! Context DIRECT: ENCNEXT and SEND are refused. -/

theorem directResponse_of_seqOnly {w : Word128} {i : Instr} (hd : decode w = .ok i) (hi : SeqOnly i) :
    directResponse w = Status.notPermitted.response := by
  obtain ⟨e, he, -⟩ | ⟨j, q, hj, hq, -⟩ | ⟨-, -, -, hr⟩ := directResponse_cases w
  · simp [hd] at he
  · obtain rfl : i = j := by simpa [hd] using hj
    simp [(pureResponse_eq_none_iff i).mpr hi] at hq
  · exact hr

theorem statusOf_directResponse_le_five (w : Word128) : (statusOf (directResponse w)).toNat ≤ 5 := by
  obtain ⟨-, -, hr⟩ | ⟨i, q, -, hq, hr⟩ | ⟨-, -, -, hr⟩ := directResponse_cases w
  · rw [hr, statusOf_response]
    exact status_code_le_five _
  · rw [hr]
    exact (runStatus_of_pureResponse hq).le_five
  · rw [hr, statusOf_response]
    exact status_code_le_five _

/-- Settles O41: in context DIRECT the operations without a pure response are refused and no other is, in context SEQ
none is, and the step does not see the direct requests. -/
theorem contextDecidesWhatIsPermitted : Obligations.ContextDecidesWhatIsPermitted := by
  unfold Obligations.ContextDecidesWhatIsPermitted
  intro i hwf
  have hd : decode (encode i) = .ok i := decode_encode hwf
  refine ⟨directResponse_of_seqOnly hd, fun hi => ?_, fun s => ?_, fun s => step_withDirect _ s⟩
  · exact (runStatus_of_pureResponse (pureResponse_of_not_seqOnly hd hi)).ne_five
  · obtain ⟨t, ht, hrun⟩ := exec_answersAsRun i s
    exact ⟨t, ht, fun q hq => (hrun q hq).ne_five⟩

/-- Settles O42: an operation on the SEQ port answers as run, and a direct response is such an answer or a bare
status. -/
theorem statusCodesAboveFiveAreNeverProduced : Obligations.StatusCodesAboveFiveAreNeverProduced := by
  unfold Obligations.StatusCodesAboveFiveAreNeverProduced
  refine ⟨fun i s t q h hq => ?_, statusOf_directResponse_le_five⟩
  obtain ⟨u, hu, hrun⟩ := exec_answersAsRun i s
  obtain rfl : u = t := by simpa [h, eq_comm] using hu
  exact (hrun q hq).le_five

/-- Settles O45: with the event the step is `applyReset`, which leaves what is outside the engine. -/
theorem resetEventTouchesOnlyTheEngine : Obligations.ResetEventTouchesOnlyTheEngine := by
  unfold Obligations.ResetEventTouchesOnlyTheEngine
  intro s hreset
  exact ⟨s.applyReset, step_of_reset hreset, applyReset_engine s, applyReset_env s, applyReset_trace s,
    applyReset_directRequests s, applyReset_seqPort s, applyReset_sending s, applyReset_resetLine s⟩

end Sys2Proof.Machine.Laws
